-- ==== Sys2Proof/Word.lean ====
section
/-! DEFINITION. The value types of the block (00_scope.md section 6, "Width of values"). -/

namespace Sys2Proof

/-- A byte, "octet" in the source: unsigned, 8 bits (00_scope.md section 6). -/
abbrev Byte := BitVec 8

/-- `s16`: a signed 16-bit field, carried as its 16-bit pattern (30_encoding.md R57; 92_eei_decisions.md D19).
Its integer value is `Machine.sext16`. -/
abbrev S16 := BitVec 16

/-- `u32`: an unsigned 32-bit field (30_encoding.md R56). -/
abbrev U32 := BitVec 32

/-- `f32bits`: a 32-bit float field, carried as its 32-bit pattern and never interpreted (30_encoding.md R58). -/
abbrev F32 := BitVec 32

/-- A byte sequence seen as a frame: offset 0 is the tag byte (20_memory.md R33). -/
abbrev Frame := List Byte

end Sys2Proof
end

