-- ==== Sys2Proof/Syntax.lean ====
section
/-! DEFINITION. Packets, results, input events, and the operation set: one constructor of `Instr` per row of
spec/opcode_table.json. -/

namespace Sys2Proof

/-- The two error kinds `decode` returns (41_packet_decode.md R90). They carry no data (60_exceptions.md R196, R197). -/
inductive DecodeError where
  | unknownType
  | sizeMismatch
  deriving DecidableEq, Repr, Inhabited

/-- The three error kinds of the block, complete (60_exceptions.md R195, R200). -/
inductive ErrorKind where
  | unknownType
  | sizeMismatch
  | transportError
  deriving DecidableEq, Repr

/-- A decoded packet: fifteen constructors, one per tag that has a layout (41_packet_decode.md R90). Fields are named
by wire position where the source gives no name (30_encoding.md R55). -/
inductive Packet where
  | quat (q0 q1 q2 q3 : F32)
  | acc (v0 v1 v2 : S16)
  | gyro (v0 v1 v2 : S16)
  | mag (v0 v1 v2 : S16)
  | gpio (v : Byte)
  | color (r g b : Byte)
  | blink (b0 b1 b2 : Byte)
  | ir (v : Byte)
  | stream (mask : Byte)
  | version (v : U32)
  | id (v : U32)
  | cal (ox oy oz sx sy sz : F32)
  | gpioDdr (mask : Byte)
  | gpioPort (mask : Byte)
  | power (level : Byte)
  deriving DecidableEq, Repr

/-- `Result ::= Ok(Packet) | Err(DecodeError)` (41_packet_decode.md R90). -/
inductive Result where
  | ok (p : Packet)
  | err (e : DecodeError)
  deriving DecidableEq, Repr

/-- The six row formats of opcode_table.json (30_encoding.md R73). -/
inductive Format where
  | rxb | txb | tag | pkt | cmd | event
  deriving DecidableEq, Repr

/-- One input event of the block, as it stands at the port before it is decoded (10_state.md R20, 30_encoding.md R73).
The first six hold the raw bits of the table's formats with a bit encoding; the others are the EVENT rows, which have
none, with their arguments. -/
inductive Input where
  /-- RXB: one byte on `RX_BYTE`. -/
  | rxByte (b : Byte)
  /-- TXB: one byte of a frame being encoded. -/
  | txByte (b : Byte)
  /-- TXB: the end of the frame being encoded. -/
  | txEnd
  /-- TAG: a frame presented to `decode`. -/
  | frame (f : Frame)
  /-- PKT: a packet presented to `encode`, as the bits of its row's `encoding`. -/
  | packet (w : Frame)
  /-- CMD: a command on `CMD_IN`, as the bits of its row's `encoding`. -/
  | command (w : Frame)
  | feed (b : Byte)
  /-- One chunk on `RX_CHUNK`. -/
  | feedChunk (c : List Byte)
  /-- `RESET` on `CTRL_IN`. -/
  | asmReset
  | frameEncode (payload : List Byte)
  | decode (f : Frame)
  | encode (p : Packet)
  | transmit (p : Packet)
  | processChunk (c : List Byte)
  /-- `POLL` on `CTRL_IN`. -/
  | poll
  /-- `CLOSE` on `CTRL_IN`. -/
  | close
  /-- `TransportError` on `XPORT_ERR_IN`. -/
  | xportErr
  deriving DecidableEq, Repr

/-- Why an input event is no operation of the table. -/
inductive Reject where
  /-- A PKT word whose tag byte or length is no PKT row's: no such packet exists (42_packet_encode_commands.md R136). -/
  | noPacketRow
  /-- A CMD word that is no CMD row's: the command set is closed and its arguments are typed
  (42_packet_encode_commands.md R148, R149). -/
  | noCommandRow
  deriving DecidableEq, Repr

/-- The operation set, one constructor per row of spec/opcode_table.json, in the table's order. -/
inductive Instr where
  | rxUnescEnd
  | rxUnescEsc
  | rxUnescLit (b : Byte)
  | rxEsc
  | rxEnd
  | rxData (b : Byte)
  | txEscEnd
  | txEscEsc
  | txLit (b : Byte)
  | txTerm
  | decQuat (payload : List Byte)
  | decAcc (payload : List Byte)
  | decGyro (payload : List Byte)
  | decMag (payload : List Byte)
  | decTemperature (payload : List Byte)
  | decGpio (payload : List Byte)
  | decColor (payload : List Byte)
  | decBlink (payload : List Byte)
  | decIr (payload : List Byte)
  | decStream (payload : List Byte)
  | decVersion (payload : List Byte)
  | decId (payload : List Byte)
  | decCal (payload : List Byte)
  | decGpioDdr (payload : List Byte)
  | decGpioPort (payload : List Byte)
  | decPower (payload : List Byte)
  | decUnknown (tag : Byte) (payload : List Byte)
  | decEmpty
  | encQuat (q0 q1 q2 q3 : F32)
  | encAcc (v0 v1 v2 : S16)
  | encGyro (v0 v1 v2 : S16)
  | encMag (v0 v1 v2 : S16)
  | encGpio (v : Byte)
  | encColor (r g b : Byte)
  | encBlink (b0 b1 b2 : Byte)
  | encIr (v : Byte)
  | encStream (mask : Byte)
  | encVersion (v : U32)
  | encId (v : U32)
  | encCal (ox oy oz sx sy sz : F32)
  | encGpioDdr (mask : Byte)
  | encGpioPort (mask : Byte)
  | encPower (level : Byte)
  | cmdSetColor (r g b : Byte)
  | cmdSetStreamingMode (quat acc gyro mag temperature gpio : Bool)
  | cmdSetCalibration (ox oy oz sx sy sz : F32)
  | cmdSetGpioDirection (f0 f1 f4 f5 f6 f7 : Bool)
  | cmdSetGpioValue (f0 f1 f4 f5 f6 f7 : Bool)
  | cmdSetPower (level : Byte)
  | feed (b : Byte)
  | feedChunk (c : List Byte)
  | asmReset
  | frameEncode (payload : List Byte)
  | decode (f : Frame)
  | encode (p : Packet)
  | transmit (p : Packet)
  | processChunk (c : List Byte)
  | poll
  | close
  | xportErr
  deriving DecidableEq, Repr

end Sys2Proof
end

