-- ==== Sys2Proof/Config.lean ====
section
/-! DEFINITION. What an implementation fixes (00_scope.md R8). -/

namespace Sys2Proof

/-- `EMPTY_FRAME_ERR`: the error `decode` returns for a zero-length frame, one of the two `DecodeError` kinds, which the
spec leaves open (41_packet_decode.md R92). No body: a proof holds for both values. Log entry 6. -/
opaque Config.emptyFrameErr : DecodeError

/-- `LINE_RATE` in bit/s: a property of the external transport; no rule depends on it (00_scope.md R8). -/
def Config.lineRate : Nat := 38400

/-- The implementation parameters a model is instantiated with (00_scope.md R8), as plain data of the state that no
step writes. -/
structure Params where
  /-- `BUF_CAP`: the capacity of `S.buf` in bytes, `none` for unbounded. -/
  bufCap : Option Nat
  /-- `READ_MAX`: the largest chunk one transport read returns, `none` where no bound is given. -/
  readMax : Option Nat
  deriving DecidableEq, Repr

end Sys2Proof
end

