-- ==== Sys2Proof/Machine/Flags.lean ====
section
/-! DEFINITION. Flag computations: the mask bytes the commands build from their booleans (30_encoding.md R59, R60;
42_packet_encode_commands.md R141). The block's one status flag, `S.escaping`, is written in Machine/Assembler.lean. -/

namespace Sys2Proof.Machine

/-- The contribution of one flag argument: a 1 at its bit position if true, 0 if false (42_packet_encode_commands.md
R141). -/
def flagBit (flag : Bool) (bit : Nat) : Byte := if flag then BitVec.ofNat 8 (2 ^ bit) else 0#8

/-- The streaming-selector mask: bit position = packet tag; bits 6 and 7 are 0 (30_encoding.md R59, R143). -/
def streamMask (quat acc gyro mag temperature gpio : Bool) : Byte :=
  flagBit quat 0 ||| flagBit acc 1 ||| flagBit gyro 2 ||| flagBit mag 3 ||| flagBit temperature 4 ||| flagBit gpio 5

/-- The GPIO mask: bits 0, 1, 4, 5, 6, 7; bits 2 and 3 are 0 (30_encoding.md R60, R145, R146). -/
def gpioMask (f0 f1 f4 f5 f6 f7 : Bool) : Byte :=
  flagBit f0 0 ||| flagBit f1 1 ||| flagBit f4 4 ||| flagBit f5 5 ||| flagBit f6 6 ||| flagBit f7 7

end Sys2Proof.Machine
end

