-- ==== Sys2Proof/Machine/Operands.lean ====
section
/-! DEFINITION. Operand forms: special octets, field assembly, the layout table, and the parser and the frame builder
of each layout (30_encoding.md R50 to R58; 41_packet_decode.md R91 to R109; 42_packet_encode_commands.md R120 to R135). -/

namespace Sys2Proof.Machine

/-! ### Special octets (30_encoding.md R50) -/

def frameEnd : Byte := 0xC0#8
def escape : Byte := 0xDB#8
def escapedEnd : Byte := 0xDC#8
def escapedEscape : Byte := 0xDD#8

/-! ### Field assembly (00_scope.md section 6; 20_memory.md R35) -/

/-- `be16(b0,b1) = b0*256 + b1`: the first byte is the more significant. -/
def be16 (b0 b1 : Byte) : BitVec 16 := BitVec.ofNat 16 (b0.toNat * 2 ^ 8 + b1.toNat)

/-- `be32(b0,b1,b2,b3) = b0*2^24 + b1*2^16 + b2*2^8 + b3`: the first byte is the most significant. -/
def be32 (b0 b1 b2 b3 : Byte) : BitVec 32 :=
  BitVec.ofNat 32 (b0.toNat * 2 ^ 24 + b1.toNat * 2 ^ 16 + b2.toNat * 2 ^ 8 + b3.toNat)

/-- `bytes_be(v, 2)`. -/
def bytesBE16 (v : BitVec 16) : List Byte := [v.extractLsb' 8 8, v.extractLsb' 0 8]

/-- `bytes_be(v, 4)`. -/
def bytesBE32 (v : BitVec 32) : List Byte :=
  [v.extractLsb' 24 8, v.extractLsb' 16 8, v.extractLsb' 8 8, v.extractLsb' 0 8]

/-- `sext_16(p)`: the integer an `s16` pattern stands for (30_encoding.md R57). PRESUMED: that the representation is
two's complement is general knowledge the spec adopts (93_implementation_defined.md G2). Log entry 9. -/
def sext16 (p : S16) : Int := if p.toNat < 2 ^ 15 then (p.toNat : Int) else (p.toNat : Int) - 2 ^ 16

/-- `trunc_16(i)`: the `s16` pattern of an integer. -/
def trunc16 (i : Int) : S16 := BitVec.ofInt 16 i

/-- `MemRead(F, off, 1)`. Every use is guarded by a length check (00_scope.md section 6), so the 0 is never read. -/
def memRead8 (F : Frame) (off : Nat) : Byte := F.getD off 0#8

/-- `MemRead(F, off, 2)`. -/
def memRead16 (F : Frame) (off : Nat) : BitVec 16 := be16 (memRead8 F off) (memRead8 F (off + 1))

/-- `MemRead(F, off, 4)`. -/
def memRead32 (F : Frame) (off : Nat) : BitVec 32 :=
  be32 (memRead8 F off) (memRead8 F (off + 1)) (memRead8 F (off + 2)) (memRead8 F (off + 3))

/-! ### The layout table (30_encoding.md R54; 10_state.md R17) -/

/-- `W(tag)`: the payload width in bytes, `none` for a tag with no layout (TEMPERATURE and 16 to 255). All 8 bits of
the tag byte are compared (30_encoding.md R53). -/
def payloadWidth? (tag : Byte) : Option Nat :=
  match tag.toNat with
  | 0 => some 16
  | 1 => some 6
  | 2 => some 6
  | 3 => some 6
  | 5 => some 1
  | 6 => some 3
  | 7 => some 3
  | 8 => some 1
  | 9 => some 1
  | 10 => some 4
  | 11 => some 4
  | 12 => some 24
  | 13 => some 1
  | 14 => some 1
  | 15 => some 1
  | _ => none

/-- The tag of a packet (30_encoding.md R54). -/
def packetTag : Packet → Byte
  | .quat .. => 0x00#8
  | .acc .. => 0x01#8
  | .gyro .. => 0x02#8
  | .mag .. => 0x03#8
  | .gpio .. => 0x05#8
  | .color .. => 0x06#8
  | .blink .. => 0x07#8
  | .ir .. => 0x08#8
  | .stream .. => 0x09#8
  | .version .. => 0x0A#8
  | .id .. => 0x0B#8
  | .cal .. => 0x0C#8
  | .gpioDdr .. => 0x0D#8
  | .gpioPort .. => 0x0E#8
  | .power .. => 0x0F#8

/-! ### Parsers, one per TAG row (41_packet_decode.md R92 to R109) -/

/-- R93. -/
def parseQuat (F : Frame) : Result :=
  if F.length ≠ 17 then .err .sizeMismatch
  else .ok (.quat (memRead32 F 1) (memRead32 F 5) (memRead32 F 9) (memRead32 F 13))

/-- R94. -/
def parseAcc (F : Frame) : Result :=
  if F.length ≠ 7 then .err .sizeMismatch
  else .ok (.acc (memRead16 F 1) (memRead16 F 3) (memRead16 F 5))

/-- R95. -/
def parseGyro (F : Frame) : Result :=
  if F.length ≠ 7 then .err .sizeMismatch
  else .ok (.gyro (memRead16 F 1) (memRead16 F 3) (memRead16 F 5))

/-- R96. -/
def parseMag (F : Frame) : Result :=
  if F.length ≠ 7 then .err .sizeMismatch
  else .ok (.mag (memRead16 F 1) (memRead16 F 3) (memRead16 F 5))

/-- R97: UnknownType at every length. -/
def parseTemperature (_F : Frame) : Result := .err .unknownType

/-- R98. -/
def parseGpio (F : Frame) : Result :=
  if F.length ≠ 2 then .err .sizeMismatch else .ok (.gpio (memRead8 F 1))

/-- R99. -/
def parseColor (F : Frame) : Result :=
  if F.length ≠ 4 then .err .sizeMismatch
  else .ok (.color (memRead8 F 1) (memRead8 F 2) (memRead8 F 3))

/-- R100. -/
def parseBlink (F : Frame) : Result :=
  if F.length ≠ 4 then .err .sizeMismatch
  else .ok (.blink (memRead8 F 1) (memRead8 F 2) (memRead8 F 3))

/-- R101. -/
def parseIr (F : Frame) : Result :=
  if F.length ≠ 2 then .err .sizeMismatch else .ok (.ir (memRead8 F 1))

/-- R102. -/
def parseStream (F : Frame) : Result :=
  if F.length ≠ 2 then .err .sizeMismatch else .ok (.stream (memRead8 F 1))

/-- R103. -/
def parseVersion (F : Frame) : Result :=
  if F.length ≠ 5 then .err .sizeMismatch else .ok (.version (memRead32 F 1))

/-- R104. -/
def parseId (F : Frame) : Result :=
  if F.length ≠ 5 then .err .sizeMismatch else .ok (.id (memRead32 F 1))

/-- R105. -/
def parseCal (F : Frame) : Result :=
  if F.length ≠ 25 then .err .sizeMismatch
  else .ok (.cal (memRead32 F 1) (memRead32 F 5) (memRead32 F 9) (memRead32 F 13) (memRead32 F 17) (memRead32 F 21))

/-- R106. -/
def parseGpioDdr (F : Frame) : Result :=
  if F.length ≠ 2 then .err .sizeMismatch else .ok (.gpioDdr (memRead8 F 1))

/-- R107. -/
def parseGpioPort (F : Frame) : Result :=
  if F.length ≠ 2 then .err .sizeMismatch else .ok (.gpioPort (memRead8 F 1))

/-- R108. -/
def parsePower (F : Frame) : Result :=
  if F.length ≠ 2 then .err .sizeMismatch else .ok (.power (memRead8 F 1))

/-- R109: UnknownType at every length. -/
def parseUnknown (_F : Frame) : Result := .err .unknownType

/-- R92: the zero-length frame; the error kind is the open parameter. -/
def parseEmpty : Result := .err Config.emptyFrameErr

/-- `decode(F)`: the dispatcher over the tag map (41_packet_decode.md R91; 30_encoding.md R63). -/
def decodeFrame (F : Frame) : Result :=
  match F with
  | [] => parseEmpty
  | tag :: _ =>
    match tag.toNat with
    | 0 => parseQuat F
    | 1 => parseAcc F
    | 2 => parseGyro F
    | 3 => parseMag F
    | 4 => parseTemperature F
    | 5 => parseGpio F
    | 6 => parseColor F
    | 7 => parseBlink F
    | 8 => parseIr F
    | 9 => parseStream F
    | 10 => parseVersion F
    | 11 => parseId F
    | 12 => parseCal F
    | 13 => parseGpioDdr F
    | 14 => parseGpioPort F
    | 15 => parsePower F
    | _ => parseUnknown F

/-! ### Frame builders, one per PKT row (42_packet_encode_commands.md R121 to R135) -/

/-- R121. -/
def frameQuat (q0 q1 q2 q3 : F32) : Frame :=
  0x00#8 :: (bytesBE32 q0 ++ bytesBE32 q1 ++ bytesBE32 q2 ++ bytesBE32 q3)

/-- R122. The pattern is `trunc_16` of the field's value (R57). -/
def frameAcc (v0 v1 v2 : S16) : Frame := 0x01#8 :: (bytesBE16 v0 ++ bytesBE16 v1 ++ bytesBE16 v2)

/-- R123. -/
def frameGyro (v0 v1 v2 : S16) : Frame := 0x02#8 :: (bytesBE16 v0 ++ bytesBE16 v1 ++ bytesBE16 v2)

/-- R124. -/
def frameMag (v0 v1 v2 : S16) : Frame := 0x03#8 :: (bytesBE16 v0 ++ bytesBE16 v1 ++ bytesBE16 v2)

/-- R125. -/
def frameGpio (v : Byte) : Frame := [0x05#8, v]

/-- R126. -/
def frameColor (r g b : Byte) : Frame := [0x06#8, r, g, b]

/-- R127. -/
def frameBlink (b0 b1 b2 : Byte) : Frame := [0x07#8, b0, b1, b2]

/-- R128. -/
def frameIr (v : Byte) : Frame := [0x08#8, v]

/-- R129. -/
def frameStream (mask : Byte) : Frame := [0x09#8, mask]

/-- R130. -/
def frameVersion (v : U32) : Frame := 0x0A#8 :: bytesBE32 v

/-- R131. -/
def frameId (v : U32) : Frame := 0x0B#8 :: bytesBE32 v

/-- R132. -/
def frameCal (ox oy oz sx sy sz : F32) : Frame :=
  0x0C#8 :: (bytesBE32 ox ++ bytesBE32 oy ++ bytesBE32 oz ++ bytesBE32 sx ++ bytesBE32 sy ++ bytesBE32 sz)

/-- R133. -/
def frameGpioDdr (mask : Byte) : Frame := [0x0D#8, mask]

/-- R134. -/
def frameGpioPort (mask : Byte) : Frame := [0x0E#8, mask]

/-- R135. -/
def framePower (level : Byte) : Frame := [0x0F#8, level]

/-- `encode(p)`: the unescaped frame, defined on all fifteen packets (42_packet_encode_commands.md R120;
90_conflicts.md C1). -/
def encodePacket : Packet → Frame
  | .quat q0 q1 q2 q3 => frameQuat q0 q1 q2 q3
  | .acc v0 v1 v2 => frameAcc v0 v1 v2
  | .gyro v0 v1 v2 => frameGyro v0 v1 v2
  | .mag v0 v1 v2 => frameMag v0 v1 v2
  | .gpio v => frameGpio v
  | .color r g b => frameColor r g b
  | .blink b0 b1 b2 => frameBlink b0 b1 b2
  | .ir v => frameIr v
  | .stream mask => frameStream mask
  | .version v => frameVersion v
  | .id v => frameId v
  | .cal ox oy oz sx sy sz => frameCal ox oy oz sx sy sz
  | .gpioDdr mask => frameGpioDdr mask
  | .gpioPort mask => frameGpioPort mask
  | .power level => framePower level

/-! ### Numeric status (60_exceptions.md R200) -/

/-- The kind of a decode error among the block's three (60_exceptions.md R195). -/
def errorKind : DecodeError → ErrorKind
  | .unknownType => .unknownType
  | .sizeMismatch => .sizeMismatch

/-- The numbers the spec assigns for a status port; nothing depends on them (60_exceptions.md R200). -/
def errorCode : ErrorKind → Nat
  | .unknownType => 1
  | .sizeMismatch => 2
  | .transportError => 3

/-- 0 is no error (60_exceptions.md R200). -/
def statusCode : Result → Nat
  | .ok _ => 0
  | .err e => errorCode (errorKind e)

end Sys2Proof.Machine
end

