-- ==== Sys2Proof/WellFormed.lean ====
section
/-! DEFINITION. Which terms of `Instr` are operations of the table: the "any other byte" rows exclude the bytes their
format's earlier rows take. -/

namespace Sys2Proof

/-- The row's operand condition (30_encoding.md R61, R62, R63): RX.UNESC_LIT is any byte but 0xDC and 0xDD, RX.DATA and
TX.LIT any byte but 0xC0 and 0xDB, DEC.UNKNOWN a tag of 16 to 255. Every other operand is free. -/
def Instr.wellFormed : Instr → Bool
  | .rxUnescLit b => b != 0xDC#8 && b != 0xDD#8
  | .rxData b => b != 0xDB#8 && b != 0xC0#8
  | .txLit b => b != 0xC0#8 && b != 0xDB#8
  | .decUnknown tag _ => decide (16 ≤ tag.toNat)
  | _ => true

/-- The value of `S.escaping` a row requires, its `context` key (30_encoding.md R61, R73); `none` where it has none. -/
def Instr.context : Instr → Option Bool
  | .rxUnescEnd | .rxUnescEsc | .rxUnescLit _ => some true
  | .rxEsc | .rxEnd | .rxData _ => some false
  | _ => none

end Sys2Proof
end

