-- ==== Sys2Proof/Decode.lean ====
section
/-! DEFINITION. From an input event to an operation, by the maps of 30_encoding.md R61 to R63 and the row encodings of
opcode_table.json, and back. Total; an event that is no row is rejected by name. -/

namespace Sys2Proof

open Machine

/-- RXB rows: the inbound byte-class map, the flag tested first (30_encoding.md R61). -/
def decodeRx (escaping : Bool) (b : Byte) : Instr :=
  if escaping then
    if b = escapedEnd then .rxUnescEnd
    else if b = escapedEscape then .rxUnescEsc
    else .rxUnescLit b
  else if b = escape then .rxEsc
  else if b = frameEnd then .rxEnd
  else .rxData b

/-- TXB rows with a selecting byte: the outbound byte-class map (30_encoding.md R62). -/
def decodeTx (b : Byte) : Instr :=
  if b = frameEnd then .txEscEnd
  else if b = escape then .txEscEsc
  else .txLit b

/-- TAG rows: DEC.EMPTY first, then byte 0, all 8 bits compared (30_encoding.md R63, R73). The length is the row's own
business, not the decoder's. -/
def decodeTag (f : Frame) : Instr :=
  match f with
  | [] => .decEmpty
  | tag :: payload =>
    match tag.toNat with
    | 0 => .decQuat payload
    | 1 => .decAcc payload
    | 2 => .decGyro payload
    | 3 => .decMag payload
    | 4 => .decTemperature payload
    | 5 => .decGpio payload
    | 6 => .decColor payload
    | 7 => .decBlink payload
    | 8 => .decIr payload
    | 9 => .decStream payload
    | 10 => .decVersion payload
    | 11 => .decId payload
    | 12 => .decCal payload
    | 13 => .decGpioDdr payload
    | 14 => .decGpioPort payload
    | 15 => .decPower payload
    | _ => .decUnknown tag payload

/-- The PKT row of a packet (opcode_table.json row ENCODE; 42_packet_encode_commands.md R120). -/
def encRow : Packet → Instr
  | .quat q0 q1 q2 q3 => .encQuat q0 q1 q2 q3
  | .acc v0 v1 v2 => .encAcc v0 v1 v2
  | .gyro v0 v1 v2 => .encGyro v0 v1 v2
  | .mag v0 v1 v2 => .encMag v0 v1 v2
  | .gpio v => .encGpio v
  | .color r g b => .encColor r g b
  | .blink b0 b1 b2 => .encBlink b0 b1 b2
  | .ir v => .encIr v
  | .stream mask => .encStream mask
  | .version v => .encVersion v
  | .id v => .encId v
  | .cal ox oy oz sx sy sz => .encCal ox oy oz sx sy sz
  | .gpioDdr mask => .encGpioDdr mask
  | .gpioPort mask => .encGpioPort mask
  | .power level => .encPower level

/-- PKT rows: the word is the packet's whole frame (30_encoding.md R55, R73). -/
def decodePkt (w : Frame) : Except Reject Instr :=
  match w with
  | [] => .error .noPacketRow
  | _ :: _ =>
    match decodeFrame w with
    | .ok p => .ok (encRow p)
    | .err _ => .error .noPacketRow

/-- The CMD row of a packet, where its bits fit the row's encoding: mask bits with no flag are 0
(30_encoding.md R59, R60, R72; the rows' `fixed_zero_bits`). -/
def cmdRow : Packet → Except Reject Instr
  | .color r g b => .ok (.cmdSetColor r g b)
  | .stream m =>
    if m &&& 0xC0#8 = 0#8 then
      .ok (.cmdSetStreamingMode (m.getLsbD 0) (m.getLsbD 1) (m.getLsbD 2) (m.getLsbD 3) (m.getLsbD 4) (m.getLsbD 5))
    else .error .noCommandRow
  | .cal ox oy oz sx sy sz => .ok (.cmdSetCalibration ox oy oz sx sy sz)
  | .gpioDdr m =>
    if m &&& 0x0C#8 = 0#8 then
      .ok (.cmdSetGpioDirection (m.getLsbD 0) (m.getLsbD 1) (m.getLsbD 4) (m.getLsbD 5) (m.getLsbD 6) (m.getLsbD 7))
    else .error .noCommandRow
  | .gpioPort m =>
    if m &&& 0x0C#8 = 0#8 then
      .ok (.cmdSetGpioValue (m.getLsbD 0) (m.getLsbD 1) (m.getLsbD 4) (m.getLsbD 5) (m.getLsbD 6) (m.getLsbD 7))
    else .error .noCommandRow
  | .power level => .ok (.cmdSetPower level)
  | _ => .error .noCommandRow

/-- CMD rows: the word is the command's whole frame (30_encoding.md R72, R73). -/
def decodeCmd (w : Frame) : Except Reject Instr :=
  match w with
  | [] => .error .noCommandRow
  | _ :: _ =>
    match decodeFrame w with
    | .ok p => cmdRow p
    | .err _ => .error .noCommandRow

/-- The operation an input event selects when `S.escaping` is `escaping` (30_encoding.md R73: a decoder written from
the table alone). -/
def decodeInput (escaping : Bool) : Input → Except Reject Instr
  | .rxByte b => .ok (decodeRx escaping b)
  | .txByte b => .ok (decodeTx b)
  | .txEnd => .ok .txTerm
  | .frame f => .ok (decodeTag f)
  | .packet w => decodePkt w
  | .command w => decodeCmd w
  | .feed b => .ok (.feed b)
  | .feedChunk c => .ok (.feedChunk c)
  | .asmReset => .ok .asmReset
  | .frameEncode p => .ok (.frameEncode p)
  | .decode f => .ok (.decode f)
  | .encode p => .ok (.encode p)
  | .transmit p => .ok (.transmit p)
  | .processChunk c => .ok (.processChunk c)
  | .poll => .ok .poll
  | .close => .ok .close
  | .xportErr => .ok .xportErr

/-- The input event that presents an operation: the row's own bits, written from the row's `match` and `encoding`. -/
def encodeInput : Instr → Input
  | .rxUnescEnd => .rxByte 0xDC#8
  | .rxUnescEsc => .rxByte 0xDD#8
  | .rxUnescLit b => .rxByte b
  | .rxEsc => .rxByte 0xDB#8
  | .rxEnd => .rxByte 0xC0#8
  | .rxData b => .rxByte b
  | .txEscEnd => .txByte 0xC0#8
  | .txEscEsc => .txByte 0xDB#8
  | .txLit b => .txByte b
  | .txTerm => .txEnd
  | .decQuat payload => .frame (0x00#8 :: payload)
  | .decAcc payload => .frame (0x01#8 :: payload)
  | .decGyro payload => .frame (0x02#8 :: payload)
  | .decMag payload => .frame (0x03#8 :: payload)
  | .decTemperature payload => .frame (0x04#8 :: payload)
  | .decGpio payload => .frame (0x05#8 :: payload)
  | .decColor payload => .frame (0x06#8 :: payload)
  | .decBlink payload => .frame (0x07#8 :: payload)
  | .decIr payload => .frame (0x08#8 :: payload)
  | .decStream payload => .frame (0x09#8 :: payload)
  | .decVersion payload => .frame (0x0A#8 :: payload)
  | .decId payload => .frame (0x0B#8 :: payload)
  | .decCal payload => .frame (0x0C#8 :: payload)
  | .decGpioDdr payload => .frame (0x0D#8 :: payload)
  | .decGpioPort payload => .frame (0x0E#8 :: payload)
  | .decPower payload => .frame (0x0F#8 :: payload)
  | .decUnknown tag payload => .frame (tag :: payload)
  | .decEmpty => .frame []
  | .encQuat q0 q1 q2 q3 => .packet (frameQuat q0 q1 q2 q3)
  | .encAcc v0 v1 v2 => .packet (frameAcc v0 v1 v2)
  | .encGyro v0 v1 v2 => .packet (frameGyro v0 v1 v2)
  | .encMag v0 v1 v2 => .packet (frameMag v0 v1 v2)
  | .encGpio v => .packet (frameGpio v)
  | .encColor r g b => .packet (frameColor r g b)
  | .encBlink b0 b1 b2 => .packet (frameBlink b0 b1 b2)
  | .encIr v => .packet (frameIr v)
  | .encStream mask => .packet (frameStream mask)
  | .encVersion v => .packet (frameVersion v)
  | .encId v => .packet (frameId v)
  | .encCal ox oy oz sx sy sz => .packet (frameCal ox oy oz sx sy sz)
  | .encGpioDdr mask => .packet (frameGpioDdr mask)
  | .encGpioPort mask => .packet (frameGpioPort mask)
  | .encPower level => .packet (framePower level)
  | .cmdSetColor r g b => .command (frameColor r g b)
  | .cmdSetStreamingMode q a y m t g => .command (frameStream (streamMask q a y m t g))
  | .cmdSetCalibration ox oy oz sx sy sz => .command (frameCal ox oy oz sx sy sz)
  | .cmdSetGpioDirection f0 f1 f4 f5 f6 f7 => .command (frameGpioDdr (gpioMask f0 f1 f4 f5 f6 f7))
  | .cmdSetGpioValue f0 f1 f4 f5 f6 f7 => .command (frameGpioPort (gpioMask f0 f1 f4 f5 f6 f7))
  | .cmdSetPower level => .command (framePower level)
  | .feed b => .feed b
  | .feedChunk c => .feedChunk c
  | .asmReset => .asmReset
  | .frameEncode p => .frameEncode p
  | .decode f => .decode f
  | .encode p => .encode p
  | .transmit p => .transmit p
  | .processChunk c => .processChunk c
  | .poll => .poll
  | .close => .close
  | .xportErr => .xportErr

/-- The table format of an input event (30_encoding.md R73). -/
def inputFormat : Input → Format
  | .rxByte _ => .rxb
  | .txByte _ | .txEnd => .txb
  | .frame _ => .tag
  | .packet _ => .pkt
  | .command _ => .cmd
  | .feed _ | .feedChunk _ | .asmReset | .frameEncode _ | .decode _ | .encode _ | .transmit _ | .processChunk _
  | .poll | .close | .xportErr => .event

/-- What opcode_table.json says of a row's selection: its `format`, its `match` and `mask` on the selecting byte where it
has one, and the value of `S.escaping` it requires (30_encoding.md R73). -/
structure Row where
  format : Format
  select : Option (Byte × Byte)
  context : Option Bool
  deriving DecidableEq, Repr

/-- The table's row of an operation, key by key from opcode_table.json. -/
def tableRow : Instr → Row
  | .rxUnescEnd => ⟨.rxb, some (0xDC#8, 0xFF#8), some true⟩
  | .rxUnescEsc => ⟨.rxb, some (0xDD#8, 0xFF#8), some true⟩
  | .rxUnescLit .. => ⟨.rxb, some (0x00#8, 0x00#8), some true⟩
  | .rxEsc => ⟨.rxb, some (0xDB#8, 0xFF#8), some false⟩
  | .rxEnd => ⟨.rxb, some (0xC0#8, 0xFF#8), some false⟩
  | .rxData .. => ⟨.rxb, some (0x00#8, 0x00#8), some false⟩
  | .txEscEnd => ⟨.txb, some (0xC0#8, 0xFF#8), none⟩
  | .txEscEsc => ⟨.txb, some (0xDB#8, 0xFF#8), none⟩
  | .txLit .. => ⟨.txb, some (0x00#8, 0x00#8), none⟩
  | .txTerm => ⟨.txb, none, none⟩
  | .decQuat .. => ⟨.tag, some (0x00#8, 0xFF#8), none⟩
  | .decAcc .. => ⟨.tag, some (0x01#8, 0xFF#8), none⟩
  | .decGyro .. => ⟨.tag, some (0x02#8, 0xFF#8), none⟩
  | .decMag .. => ⟨.tag, some (0x03#8, 0xFF#8), none⟩
  | .decTemperature .. => ⟨.tag, some (0x04#8, 0xFF#8), none⟩
  | .decGpio .. => ⟨.tag, some (0x05#8, 0xFF#8), none⟩
  | .decColor .. => ⟨.tag, some (0x06#8, 0xFF#8), none⟩
  | .decBlink .. => ⟨.tag, some (0x07#8, 0xFF#8), none⟩
  | .decIr .. => ⟨.tag, some (0x08#8, 0xFF#8), none⟩
  | .decStream .. => ⟨.tag, some (0x09#8, 0xFF#8), none⟩
  | .decVersion .. => ⟨.tag, some (0x0A#8, 0xFF#8), none⟩
  | .decId .. => ⟨.tag, some (0x0B#8, 0xFF#8), none⟩
  | .decCal .. => ⟨.tag, some (0x0C#8, 0xFF#8), none⟩
  | .decGpioDdr .. => ⟨.tag, some (0x0D#8, 0xFF#8), none⟩
  | .decGpioPort .. => ⟨.tag, some (0x0E#8, 0xFF#8), none⟩
  | .decPower .. => ⟨.tag, some (0x0F#8, 0xFF#8), none⟩
  | .decUnknown .. => ⟨.tag, some (0x00#8, 0x00#8), none⟩
  | .decEmpty => ⟨.tag, none, none⟩
  | .encQuat .. => ⟨.pkt, some (0x00#8, 0xFF#8), none⟩
  | .encAcc .. => ⟨.pkt, some (0x01#8, 0xFF#8), none⟩
  | .encGyro .. => ⟨.pkt, some (0x02#8, 0xFF#8), none⟩
  | .encMag .. => ⟨.pkt, some (0x03#8, 0xFF#8), none⟩
  | .encGpio .. => ⟨.pkt, some (0x05#8, 0xFF#8), none⟩
  | .encColor .. => ⟨.pkt, some (0x06#8, 0xFF#8), none⟩
  | .encBlink .. => ⟨.pkt, some (0x07#8, 0xFF#8), none⟩
  | .encIr .. => ⟨.pkt, some (0x08#8, 0xFF#8), none⟩
  | .encStream .. => ⟨.pkt, some (0x09#8, 0xFF#8), none⟩
  | .encVersion .. => ⟨.pkt, some (0x0A#8, 0xFF#8), none⟩
  | .encId .. => ⟨.pkt, some (0x0B#8, 0xFF#8), none⟩
  | .encCal .. => ⟨.pkt, some (0x0C#8, 0xFF#8), none⟩
  | .encGpioDdr .. => ⟨.pkt, some (0x0D#8, 0xFF#8), none⟩
  | .encGpioPort .. => ⟨.pkt, some (0x0E#8, 0xFF#8), none⟩
  | .encPower .. => ⟨.pkt, some (0x0F#8, 0xFF#8), none⟩
  | .cmdSetColor .. => ⟨.cmd, some (0x06#8, 0xFF#8), none⟩
  | .cmdSetStreamingMode .. => ⟨.cmd, some (0x09#8, 0xFF#8), none⟩
  | .cmdSetCalibration .. => ⟨.cmd, some (0x0C#8, 0xFF#8), none⟩
  | .cmdSetGpioDirection .. => ⟨.cmd, some (0x0D#8, 0xFF#8), none⟩
  | .cmdSetGpioValue .. => ⟨.cmd, some (0x0E#8, 0xFF#8), none⟩
  | .cmdSetPower .. => ⟨.cmd, some (0x0F#8, 0xFF#8), none⟩
  | .feed .. => ⟨.event, none, none⟩
  | .feedChunk .. => ⟨.event, none, none⟩
  | .asmReset => ⟨.event, none, none⟩
  | .frameEncode .. => ⟨.event, none, none⟩
  | .decode .. => ⟨.event, none, none⟩
  | .encode .. => ⟨.event, none, none⟩
  | .transmit .. => ⟨.event, none, none⟩
  | .processChunk .. => ⟨.event, none, none⟩
  | .poll => ⟨.event, none, none⟩
  | .close => ⟨.event, none, none⟩
  | .xportErr => ⟨.event, none, none⟩

/-- The byte a row is selected by: the wire byte, the frame byte, or byte 0 of the frame (30_encoding.md R61 to R63). -/
def selectingByte : Input → Option Byte
  | .rxByte b => some b
  | .txByte b => some b
  | .frame f => f.head?
  | .packet w => w.head?
  | .command w => w.head?
  | _ => none

/-- A row matches byte `x` when `x & mask == match`; a row with no selecting byte has neither (30_encoding.md R73). -/
def rowSelects (r : Row) (x : Option Byte) : Bool :=
  match r.select with
  | some p => x.any fun b => b &&& p.2 == p.1
  | none => x.isNone

/-! ### Words numbered as the table numbers them -/

/-- The bytes of a word, the first byte in bits 7..0. -/
def wordBytes : Nat → Nat → List Byte
  | 0, _ => []
  | n + 1, w => BitVec.ofNat 8 w :: wordBytes n (w / 256)

/-- How many bytes a TAG word has: the table's bits, or the whole frame of its tag where the table gives fewer. -/
def tagWordLength (nbits : Nat) (w : Nat) : Nat :=
  match payloadWidth? (BitVec.ofNat 8 w) with
  | some width => max (nbits / 8) (1 + width)
  | none => nbits / 8

/-- The input event a bare table word stands for, and the value of `S.escaping` it is read with. The table's formats
share words; a bare word is read as INBOUND: an RXB row that names its byte, else a frame for the TAG map. Log entry 15. -/
def tableInput (nbits w : Nat) : Bool × Input :=
  match nbits with
  | 0 => (false, .frame [])
  | _ =>
    let b : Byte := BitVec.ofNat 8 w
    if b = escapedEnd || b = escapedEscape then (true, .rxByte b)
    else if b = escape || b = frameEnd then (false, .rxByte b)
    else (false, .frame (wordBytes (tagWordLength nbits w) w))

/-- The operation the decoder reads from a bare table word (fixed name). -/
def decodeTableWord (nbits w : Nat) : Option Instr :=
  match decodeInput (tableInput nbits w).1 (tableInput nbits w).2 with
  | .ok i => some i
  | .error _ => none

end Sys2Proof
end

