-- ==== Sys2Proof/Machine/FrameCodec.lean ====
section
/-! DEFINITION. FrameCodec: byte stuffing (40_frame_codec.md R81 to R87). -/

namespace Sys2Proof.Machine

/-- `esc(b)`: the wire bytes of one frame byte (40_frame_codec.md R81 to R83). -/
def esc (b : Byte) : List Byte :=
  if b = frameEnd then [escape, escapedEnd]
  else if b = escape then [escape, escapedEscape]
  else [b]

/-- `unesc(b)`: the mapping of the byte that follows an ESCAPE (40_frame_codec.md R87). -/
def unesc (b : Byte) : Byte :=
  if b = escapedEnd then frameEnd
  else if b = escapedEscape then escape
  else b

/-- `Encode(payload)`: each byte escaped in order, then one terminator (40_frame_codec.md R85). -/
def frameEncode (payload : List Byte) : List Byte := payload.flatMap esc ++ [frameEnd]

end Sys2Proof.Machine
end

