-- ==== Sys2Proof/Machine/State.lean ====
section
/-! DEFINITION. The state of the block: the assembler `S` (10_state.md R10), its ports as data (R20), and its
parameters (00_scope.md R8). -/

namespace Sys2Proof.Machine

/-- The assembler state `S = { buf, escaping }`, the whole architectural state of the block (10_state.md R10). -/
structure Assembler where
  /-- `S.buf`: the not-yet-terminated frame, 8-bit cells indexed from 0 (10_state.md R11). -/
  buf : Frame
  /-- `S.escaping`: the pending-escape flag; `false` is NORMAL, `true` is ESCAPED (10_state.md R13). -/
  escaping : Bool
  deriving DecidableEq, Repr

/-- One output event on a port of 10_state.md R20. -/
inductive Output where
  /-- `FRAME_OUT`, internal, assembler to PacketCodec. -/
  | frameOut (f : Frame)
  /-- `RESULT_OUT`, to the application. -/
  | resultOut (r : Result)
  /-- `TX_BYTE`, to the TransportPort. -/
  | txByte (b : Byte)
  /-- `ERR_OUT`, to the application. -/
  | errOut (e : ErrorKind)
  deriving DecidableEq, Repr

/-- The value an operation returns to its caller: the `return` of the spec's pseudocode. -/
inductive Ret where
  /-- Nothing is returned (R81 to R84, R140, R172, R183, R198). -/
  | nothing
  /-- `feed`: an optional FrameBytes (43_stream_assembler.md R161). -/
  | frame (f : Option Frame)
  /-- `feed_chunk`: the frames in arrival order (43_stream_assembler.md R168). -/
  | frames (fs : List Frame)
  /-- `decode` (41_packet_decode.md R91). -/
  | result (r : Result)
  /-- `process_chunk` and `poll` (44_pipeline_host.md R180, R181). -/
  | results (rs : List Result)
  /-- `encode` and `Encode` (42_packet_encode_commands.md R120, 40_frame_codec.md R85). -/
  | bytes (bs : List Byte)
  deriving DecidableEq, Repr

/-- The TransportPort's reply to one non-blocking read (44_pipeline_host.md R181; 60_exceptions.md R198). -/
inductive ReadReply where
  /-- The bytes the transport has for the block, possibly none. -/
  | bytes (c : List Byte)
  /-- The read failed. -/
  | failed
  deriving DecidableEq, Repr

/-- The TransportPort's reply to one write (42_packet_encode_commands.md R140; 60_exceptions.md R198). -/
inductive WriteReply where
  | accepted
  | failed
  deriving DecidableEq, Repr

/-- The state of the machine. -/
structure State where
  /-- `S` (10_state.md R10). -/
  asm : Assembler
  /-- Input events not yet consumed, the next one first (10_state.md R20; the model's own field, log entry 1). -/
  inputs : List Input
  /-- The TransportPort's replies to the block's next reads (the model's own field, log entry 7). -/
  reads : List ReadReply
  /-- The TransportPort's replies to the block's next writes (the model's own field, log entry 8). -/
  writes : List WriteReply
  /-- Every output event emitted, oldest first; no step reads it (10_state.md R20; the model's own field, log entry 2). -/
  trace : List Output
  /-- The value the last operation returned (the model's own field, log entry 3). -/
  ret : Ret
  /-- The implementation parameters (00_scope.md R8); no step writes them (log entries 4 and 5). -/
  par : Params
  deriving DecidableEq, Repr

/-- Why the machine stops with a fault. -/
inductive Fault where
  /-- `RxOverflow`: an append to a full buffer under a finite `BUF_CAP` (70_reset_and_hazards.md R233; 60_exceptions.md
  R208). Raised by RX.UNESC_END, RX.UNESC_ESC, RX.UNESC_LIT, RX.DATA, and by FEED, FEED_CHUNK, PROCESS_CHUNK and POLL
  through them. SAFE: the machine stops where real hardware goes on in some way the spec does not give. -/
  | rxOverflow
  deriving DecidableEq, Repr

/-- Why an input event has no meaning. -/
inductive Refusal where
  /-- An operation whose meaning is not written: raised by exec's arm of that operation. SAFE: the machine stops. No
  arm raises it in this model. -/
  | notModelled (mnemonic : String)
  /-- A PKT word that is no row of the table: raised by step. SAFE: no such packet can be presented
  (42_packet_encode_commands.md R136). -/
  | noPacketRow
  /-- A CMD word that is no row of the table: raised by step. SAFE: no such command can be presented
  (42_packet_encode_commands.md R148, R149). -/
  | noCommandRow
  deriving DecidableEq, Repr

/-- The assembler after reset: `{ [], false }` (10_state.md R24). -/
def Assembler.reset : Assembler := { buf := [], escaping := false }

/-- The machine right after construction, which is the power-on reset (10_state.md R24; 70_reset_and_hazards.md R220):
`S` as the spec gives it, no input waiting, nothing emitted, `BUF_CAP` at its stated default. -/
def State.reset : State :=
  { asm := Assembler.reset
    inputs := []
    reads := []
    writes := []
    trace := []
    ret := .nothing
    par := { bufCap := none, readMax := none } }

end Sys2Proof.Machine
end

