-- ==== Sys2Proof/Machine/Assembler.lean ====
section
/-! DEFINITION. StreamAssembler: the escape state machine over `S` (43_stream_assembler.md R161 to R172). A step answers
`none` where an append meets a full buffer (70_reset_and_hazards.md R233), else the next `S` and what it returns. -/

namespace Sys2Proof.Machine

/-- Whether one more byte fits: always, unless `BUF_CAP` is finite and reached (10_state.md R12). -/
def hasRoom (cap : Option Nat) (buf : Frame) : Bool :=
  match cap with
  | none => true
  | some n => decide (buf.length < n)

/-- The block's one store: `S.buf <- S.buf ++ [v]` (00_scope.md section 6, MemWrite). -/
def asmAppend (cap : Option Nat) (S : Assembler) (v : Byte) : Option Assembler :=
  if hasRoom cap S.buf then some { S with buf := S.buf ++ [v] } else none

/-- An append of an unescaped byte, which also clears the flag (43_stream_assembler.md R161, first branch). -/
def asmUnescape (cap : Option Nat) (S : Assembler) (v : Byte) : Option (Assembler × Option Frame) :=
  match asmAppend cap S v with
  | some S' => some ({ S' with escaping := false }, none)
  | none => none

/-- RX.UNESC_END (43_stream_assembler.md R162). -/
def asmUnescEnd (cap : Option Nat) (S : Assembler) : Option (Assembler × Option Frame) := asmUnescape cap S frameEnd

/-- RX.UNESC_ESC (43_stream_assembler.md R163). -/
def asmUnescEsc (cap : Option Nat) (S : Assembler) : Option (Assembler × Option Frame) := asmUnescape cap S escape

/-- RX.UNESC_LIT (43_stream_assembler.md R164). -/
def asmUnescLit (cap : Option Nat) (S : Assembler) (b : Byte) : Option (Assembler × Option Frame) := asmUnescape cap S b

/-- RX.ESC: the byte is not appended (43_stream_assembler.md R165). -/
def asmEsc (S : Assembler) : Option (Assembler × Option Frame) := some ({ S with escaping := true }, none)

/-- RX.END: the whole buffer becomes a frame, or nothing where it is empty (43_stream_assembler.md R166). -/
def asmEnd (S : Assembler) : Option (Assembler × Option Frame) :=
  match S.buf with
  | [] => some (S, none)
  | b :: bs => some ({ buf := [], escaping := false }, some (b :: bs))

/-- RX.DATA (43_stream_assembler.md R167). -/
def asmData (cap : Option Nat) (S : Assembler) (b : Byte) : Option (Assembler × Option Frame) :=
  match asmAppend cap S b with
  | some S' => some (S', none)
  | none => none

/-- `feed(S, b)`: the flag is tested first, then ESCAPE, then FRAME_END (43_stream_assembler.md R161). -/
def feed (cap : Option Nat) (S : Assembler) (b : Byte) : Option (Assembler × Option Frame) :=
  if S.escaping then
    if b = escapedEnd then asmUnescEnd cap S
    else if b = escapedEscape then asmUnescEsc cap S
    else asmUnescLit cap S b
  else if b = escape then asmEsc S
  else if b = frameEnd then asmEnd S
  else asmData cap S b

/-- `feed_chunk(S, c)`: a left fold of `feed`, frames in arrival order (43_stream_assembler.md R168). -/
def feedChunk (cap : Option Nat) (S : Assembler) (c : List Byte) : Option (Assembler × List Frame) :=
  match c with
  | [] => some (S, [])
  | b :: rest =>
    match feed cap S b with
    | none => none
    | some (S1, r) =>
      match feedChunk cap S1 rest with
      | none => none
      | some (S2, out) => some (S2, r.toList ++ out)

/-- ASM.RESET on `S`, the discard (43_stream_assembler.md R172). -/
def asmReset (_S : Assembler) : Assembler := { buf := [], escaping := false }

/-- `extract_frame(w)`: the one frame `w` yields from the reset state, undefined where there is none or several
(44_pipeline_host.md R185). -/
def extractFrame (cap : Option Nat) (w : List Byte) : Option Frame :=
  match feedChunk cap Assembler.reset w with
  | some (_, [f]) => some f
  | _ => none

end Sys2Proof.Machine
end

