-- ==== Sys2Proof/Machine/Ops.lean ====
section
/-! DEFINITION. The named operations over the state, which every meaning is written with. -/

namespace Sys2Proof.Machine

/-! ### Field updates -/

def State.setAsm (s : State) (S : Assembler) : State := { s with asm := S }
def State.setInputs (s : State) (es : List Input) : State := { s with inputs := es }
def State.setReads (s : State) (rs : List ReadReply) : State := { s with reads := rs }
def State.setWrites (s : State) (ws : List WriteReply) : State := { s with writes := ws }
def State.setRet (s : State) (r : Ret) : State := { s with ret := r }

/-- `emit PORT(v)`, events of one step in the order written (00_scope.md section 6). -/
def State.emit (s : State) (out : List Output) : State := { s with trace := s.trace ++ out }

/-! ### The ports of 10_state.md R20, read from the trace -/

/-- What `FRAME_OUT` has carried. -/
def framesOf (t : List Output) : List Frame := t.filterMap fun | .frameOut f => some f | _ => none

/-- What `RESULT_OUT` has carried. -/
def resultsOf (t : List Output) : List Result := t.filterMap fun | .resultOut r => some r | _ => none

/-- What `TX_BYTE` has carried. -/
def txBytesOf (t : List Output) : List Byte := t.filterMap fun | .txByte b => some b | _ => none

/-- What `ERR_OUT` has carried. -/
def errorsOf (t : List Output) : List ErrorKind := t.filterMap fun | .errOut e => some e | _ => none

/-! ### Inbound -/

/-- One step of the assembler as the machine's step: the frame it returns goes out on `FRAME_OUT` and to the caller
(43_stream_assembler.md R161, R166); a full buffer is the fault RxOverflow (70_reset_and_hazards.md R233). -/
def applyFeed (r : Option (Assembler × Option Frame)) (s : State) : Host.Outcome State Fault Refusal :=
  match r with
  | none => .fault .rxOverflow
  | some (S, f) => .next (((s.setAsm S).emit (f.toList.map .frameOut)).setRet (.frame f))

/-- FEED_CHUNK as the machine's step: every frame goes out on `FRAME_OUT`, in arrival order (43_stream_assembler.md
R168). -/
def applyFeedChunk (c : List Byte) (s : State) : Host.Outcome State Fault Refusal :=
  match feedChunk s.par.bufCap s.asm c with
  | none => .fault .rxOverflow
  | some (S, fs) => .next (((s.setAsm S).emit (fs.map .frameOut)).setRet (.frames fs))

/-- `process_chunk`: FEED_CHUNK, then `decode` of every frame, one result per frame in frame order. Each frame is
decoded as soon as it is produced (44_pipeline_host.md R180 allows either; 20_memory.md R43). Log entry 12. -/
def processChunk (c : List Byte) (s : State) : Host.Outcome State Fault Refusal :=
  match feedChunk s.par.bufCap s.asm c with
  | none => .fault .rxOverflow
  | some (S, fs) =>
    .next (((s.setAsm S).emit (fs.flatMap fun f => [.frameOut f, .resultOut (decodeFrame f)])).setRet
      (.results (fs.map decodeFrame)))

/-- The discard: `S <- {[], false}`, nothing emitted (43_stream_assembler.md R172). -/
def discardAsm (s : State) : State := (s.setAsm (asmReset s.asm)).setRet .nothing

/-- Taking a TransportError: the discard, then `Err(TransportError)` on `ERR_OUT`; the operation that hit it delivers
nothing else (60_exceptions.md R198). There is no return to perform (R204). -/
def takeTransportError (s : State) : State := (discardAsm s).emit [.errOut .transportError]

/-- One bounded non-blocking read: at most `READ_MAX` bytes, the rest left for the next read; no reply waiting means no
bytes available (44_pipeline_host.md R181; 00_scope.md R8). Answers the reply and what is left. -/
def readOnce (readMax : Option Nat) (reads : List ReadReply) : ReadReply × List ReadReply :=
  match reads with
  | [] => (.bytes [], [])
  | .failed :: rest => (.failed, rest)
  | .bytes c :: rest =>
    match readMax with
    | none => (.bytes c, rest)
    | some n => if c.length ≤ n then (.bytes c, rest) else (.bytes (c.take n), .bytes (c.drop n) :: rest)

/-- POLL: one read, then PROCESS_CHUNK of it; a failed read is a TransportError (44_pipeline_host.md R181). -/
def pollOnce (s : State) : Host.Outcome State Fault Refusal :=
  match readOnce s.par.readMax s.reads with
  | (.bytes c, rest) => processChunk c (s.setReads rest)
  | (.failed, rest) => .next (takeTransportError (s.setReads rest))

/-- The result of `decode` on `RESULT_OUT` and to the caller; an error stands in the place of the packet, saves
nothing and jumps nowhere (60_exceptions.md R199, R203). -/
def emitResult (r : Result) (s : State) : State := (s.emit [.resultOut r]).setRet (.result r)

/-- PacketCodec takes the frames the operation just put on `FRAME_OUT`: one result each, in order (44_pipeline_host.md
R180; 10_state.md R20). Only RX.*, FEED and FEED_CHUNK return frames. -/
def deliver (s : State) : State :=
  match s.ret with
  | .frame (some f) => s.emit [.resultOut (decodeFrame f)]
  | .frames fs => s.emit (fs.map fun f => .resultOut (decodeFrame f))
  | _ => s

/-! ### Outbound -/

/-- Bytes handed to the TransportPort in order, contiguously (42_packet_encode_commands.md R140). -/
def emitTx (bs : List Byte) (s : State) : State := (s.emit (bs.map .txByte)).setRet .nothing

/-- A pure operation's bytes, returned to its caller: no port carries them (42_packet_encode_commands.md R120,
40_frame_codec.md R85). -/
def returnBytes (bs : List Byte) (s : State) : State := s.setRet (.bytes bs)

/-- The TransportPort's reply to one write; no reply waiting means accepted (92_eei_decisions.md D14). -/
def writeOnce (writes : List WriteReply) : WriteReply × List WriteReply :=
  match writes with
  | [] => (.accepted, [])
  | w :: rest => (w, rest)

/-- `transmit(p)`: the whole wire form of the packet on `TX_BYTE`; a failed write is a TransportError
(42_packet_encode_commands.md R140). -/
def transmitPacket (p : Packet) (s : State) : State :=
  match writeOnce s.writes with
  | (.accepted, rest) => emitTx (frameEncode (encodePacket p)) (s.setWrites rest)
  | (.failed, rest) => takeTransportError (s.setWrites rest)

/-- The refusal of an input event that is no row of the table. -/
def rejectRefusal : Reject → Refusal
  | .noPacketRow => .noPacketRow
  | .noCommandRow => .noCommandRow

end Sys2Proof.Machine
end

