-- ==== Sys2Proof/Machine/Commands.lean ====
section
/-! DEFINITION. The CMD rows: each builds one packet and transmits it (42_packet_encode_commands.md R140 to R149). -/

namespace Sys2Proof.Machine

/-- CMD.SET_COLOR (42_packet_encode_commands.md R142). -/
def execCmdSetColor (r g b : Byte) (s : State) : Host.Outcome State Fault Refusal :=
  .next (transmitPacket (.color r g b) s)

/-- CMD.SET_STREAMING_MODE (42_packet_encode_commands.md R143). -/
def execCmdSetStreamingMode (quat acc gyro mag temperature gpio : Bool) (s : State) : Host.Outcome State Fault Refusal :=
  .next (transmitPacket (.stream (streamMask quat acc gyro mag temperature gpio)) s)

/-- CMD.SET_CALIBRATION (42_packet_encode_commands.md R144). -/
def execCmdSetCalibration (ox oy oz sx sy sz : F32) (s : State) : Host.Outcome State Fault Refusal :=
  .next (transmitPacket (.cal ox oy oz sx sy sz) s)

/-- CMD.SET_GPIO_DIRECTION (42_packet_encode_commands.md R145). -/
def execCmdSetGpioDirection (f0 f1 f4 f5 f6 f7 : Bool) (s : State) : Host.Outcome State Fault Refusal :=
  .next (transmitPacket (.gpioDdr (gpioMask f0 f1 f4 f5 f6 f7)) s)

/-- CMD.SET_GPIO_VALUE (42_packet_encode_commands.md R146). -/
def execCmdSetGpioValue (f0 f1 f4 f5 f6 f7 : Bool) (s : State) : Host.Outcome State Fault Refusal :=
  .next (transmitPacket (.gpioPort (gpioMask f0 f1 f4 f5 f6 f7)) s)

/-- CMD.SET_POWER (42_packet_encode_commands.md R147). -/
def execCmdSetPower (level : Byte) (s : State) : Host.Outcome State Fault Refusal :=
  .next (transmitPacket (.power level) s)

end Sys2Proof.Machine
end

