-- ==== Sys2Proof/Machine/Events.lean ====
section
/-! DEFINITION. The EVENT rows: the operations through which the owner drives the block. -/

namespace Sys2Proof.Machine

/-- FEED: one byte, dispatched on (S.escaping, byte) (43_stream_assembler.md R161). -/
def execFeed (b : Byte) (s : State) : Host.Outcome State Fault Refusal :=
  applyFeed (feed s.par.bufCap s.asm b) s

/-- FEED_CHUNK (43_stream_assembler.md R168). -/
def execFeedChunk (c : List Byte) (s : State) : Host.Outcome State Fault Refusal :=
  applyFeedChunk c s

/-- ASM.RESET: the discard (43_stream_assembler.md R172). -/
def execAsmReset (s : State) : Host.Outcome State Fault Refusal :=
  .next (discardAsm s)

/-- FRAME_ENCODE: `Encode(payload)`, returned to the caller (40_frame_codec.md R85). Log entry 14. -/
def execFrameEncode (payload : List Byte) (s : State) : Host.Outcome State Fault Refusal :=
  .next (returnBytes (frameEncode payload) s)

/-- DECODE: `decode(frame)` (41_packet_decode.md R91). -/
def execDecode (f : Frame) (s : State) : Host.Outcome State Fault Refusal :=
  .next (emitResult (decodeFrame f) s)

/-- ENCODE: `encode(p)`, returned to the caller (42_packet_encode_commands.md R120). -/
def execEncode (p : Packet) (s : State) : Host.Outcome State Fault Refusal :=
  .next (returnBytes (encodePacket p) s)

/-- TRANSMIT: the common step of every command (42_packet_encode_commands.md R140). -/
def execTransmit (p : Packet) (s : State) : Host.Outcome State Fault Refusal :=
  .next (transmitPacket p s)

/-- PROCESS_CHUNK: the inbound pipeline on one chunk (44_pipeline_host.md R180). -/
def execProcessChunk (c : List Byte) (s : State) : Host.Outcome State Fault Refusal :=
  processChunk c s

/-- POLL: one transport read, then PROCESS_CHUNK (44_pipeline_host.md R181). -/
def execPoll (s : State) : Host.Outcome State Fault Refusal :=
  pollOnce s

/-- CLOSE: the discard; releasing the transport is external (44_pipeline_host.md R183). Log entry 16. -/
def execClose (s : State) : Host.Outcome State Fault Refusal :=
  .next (discardAsm s)

/-- XPORT_ERR: a TransportError on `XPORT_ERR_IN` (60_exceptions.md R198). -/
def execXportErr (s : State) : Host.Outcome State Fault Refusal :=
  .next (takeTransportError s)

end Sys2Proof.Machine
end

