-- ==== Sys2Proof/Machine/PacketDecode.lean ====
section
/-! DEFINITION. The TAG rows: the typed packet demultiplexer (41_packet_decode.md R92 to R109). The result goes out on `RESULT_OUT`;
`S` is neither read nor written (R110). -/

namespace Sys2Proof.Machine

/-- DEC.QUAT on the frame of tag 0 with this payload (41_packet_decode.md R93). -/
def execDecQuat (payload : List Byte) (s : State) : Host.Outcome State Fault Refusal :=
  .next (emitResult (parseQuat (0x00#8 :: payload)) s)

/-- DEC.ACC on the frame of tag 1 with this payload (41_packet_decode.md R94). -/
def execDecAcc (payload : List Byte) (s : State) : Host.Outcome State Fault Refusal :=
  .next (emitResult (parseAcc (0x01#8 :: payload)) s)

/-- DEC.GYRO on the frame of tag 2 with this payload (41_packet_decode.md R95). -/
def execDecGyro (payload : List Byte) (s : State) : Host.Outcome State Fault Refusal :=
  .next (emitResult (parseGyro (0x02#8 :: payload)) s)

/-- DEC.MAG on the frame of tag 3 with this payload (41_packet_decode.md R96). -/
def execDecMag (payload : List Byte) (s : State) : Host.Outcome State Fault Refusal :=
  .next (emitResult (parseMag (0x03#8 :: payload)) s)

/-- DEC.TEMPERATURE on the frame of tag 4 with this payload (41_packet_decode.md R97). -/
def execDecTemperature (payload : List Byte) (s : State) : Host.Outcome State Fault Refusal :=
  .next (emitResult (parseTemperature (0x04#8 :: payload)) s)

/-- DEC.GPIO on the frame of tag 5 with this payload (41_packet_decode.md R98). -/
def execDecGpio (payload : List Byte) (s : State) : Host.Outcome State Fault Refusal :=
  .next (emitResult (parseGpio (0x05#8 :: payload)) s)

/-- DEC.COLOR on the frame of tag 6 with this payload (41_packet_decode.md R99). -/
def execDecColor (payload : List Byte) (s : State) : Host.Outcome State Fault Refusal :=
  .next (emitResult (parseColor (0x06#8 :: payload)) s)

/-- DEC.BLINK on the frame of tag 7 with this payload (41_packet_decode.md R100). -/
def execDecBlink (payload : List Byte) (s : State) : Host.Outcome State Fault Refusal :=
  .next (emitResult (parseBlink (0x07#8 :: payload)) s)

/-- DEC.IR on the frame of tag 8 with this payload (41_packet_decode.md R101). -/
def execDecIr (payload : List Byte) (s : State) : Host.Outcome State Fault Refusal :=
  .next (emitResult (parseIr (0x08#8 :: payload)) s)

/-- DEC.STREAM on the frame of tag 9 with this payload (41_packet_decode.md R102). -/
def execDecStream (payload : List Byte) (s : State) : Host.Outcome State Fault Refusal :=
  .next (emitResult (parseStream (0x09#8 :: payload)) s)

/-- DEC.VERSION on the frame of tag 10 with this payload (41_packet_decode.md R103). -/
def execDecVersion (payload : List Byte) (s : State) : Host.Outcome State Fault Refusal :=
  .next (emitResult (parseVersion (0x0A#8 :: payload)) s)

/-- DEC.ID on the frame of tag 11 with this payload (41_packet_decode.md R104). -/
def execDecId (payload : List Byte) (s : State) : Host.Outcome State Fault Refusal :=
  .next (emitResult (parseId (0x0B#8 :: payload)) s)

/-- DEC.CAL on the frame of tag 12 with this payload (41_packet_decode.md R105). -/
def execDecCal (payload : List Byte) (s : State) : Host.Outcome State Fault Refusal :=
  .next (emitResult (parseCal (0x0C#8 :: payload)) s)

/-- DEC.GPIO_DDR on the frame of tag 13 with this payload (41_packet_decode.md R106). -/
def execDecGpioDdr (payload : List Byte) (s : State) : Host.Outcome State Fault Refusal :=
  .next (emitResult (parseGpioDdr (0x0D#8 :: payload)) s)

/-- DEC.GPIO_PORT on the frame of tag 14 with this payload (41_packet_decode.md R107). -/
def execDecGpioPort (payload : List Byte) (s : State) : Host.Outcome State Fault Refusal :=
  .next (emitResult (parseGpioPort (0x0E#8 :: payload)) s)

/-- DEC.POWER on the frame of tag 15 with this payload (41_packet_decode.md R108). -/
def execDecPower (payload : List Byte) (s : State) : Host.Outcome State Fault Refusal :=
  .next (emitResult (parsePower (0x0F#8 :: payload)) s)

/-- DEC.UNKNOWN on a frame whose tag is outside the enumeration (41_packet_decode.md R109). -/
def execDecUnknown (tag : Byte) (payload : List Byte) (s : State) : Host.Outcome State Fault Refusal :=
  .next (emitResult (parseUnknown (tag :: payload)) s)

/-- DEC.EMPTY: the zero-length frame (41_packet_decode.md R92). -/
def execDecEmpty (s : State) : Host.Outcome State Fault Refusal :=
  .next (emitResult parseEmpty s)

end Sys2Proof.Machine
end

