-- ==== Sys2Proof/Machine/PacketEncode.lean ====
section
/-! DEFINITION. The PKT rows: `encode` of one packet kind returns the unescaped frame and touches no other state
(42_packet_encode_commands.md R120 to R135). -/

namespace Sys2Proof.Machine

/-- ENC.QUAT (42_packet_encode_commands.md R121). -/
def execEncQuat (q0 q1 q2 q3 : F32) (s : State) : Host.Outcome State Fault Refusal :=
  .next (returnBytes (frameQuat q0 q1 q2 q3) s)

/-- ENC.ACC (42_packet_encode_commands.md R122). -/
def execEncAcc (v0 v1 v2 : S16) (s : State) : Host.Outcome State Fault Refusal :=
  .next (returnBytes (frameAcc v0 v1 v2) s)

/-- ENC.GYRO (42_packet_encode_commands.md R123). -/
def execEncGyro (v0 v1 v2 : S16) (s : State) : Host.Outcome State Fault Refusal :=
  .next (returnBytes (frameGyro v0 v1 v2) s)

/-- ENC.MAG (42_packet_encode_commands.md R124). -/
def execEncMag (v0 v1 v2 : S16) (s : State) : Host.Outcome State Fault Refusal :=
  .next (returnBytes (frameMag v0 v1 v2) s)

/-- ENC.GPIO (42_packet_encode_commands.md R125). -/
def execEncGpio (v : Byte) (s : State) : Host.Outcome State Fault Refusal :=
  .next (returnBytes (frameGpio v) s)

/-- ENC.COLOR (42_packet_encode_commands.md R126). -/
def execEncColor (r g b : Byte) (s : State) : Host.Outcome State Fault Refusal :=
  .next (returnBytes (frameColor r g b) s)

/-- ENC.BLINK (42_packet_encode_commands.md R127). -/
def execEncBlink (b0 b1 b2 : Byte) (s : State) : Host.Outcome State Fault Refusal :=
  .next (returnBytes (frameBlink b0 b1 b2) s)

/-- ENC.IR (42_packet_encode_commands.md R128). -/
def execEncIr (v : Byte) (s : State) : Host.Outcome State Fault Refusal :=
  .next (returnBytes (frameIr v) s)

/-- ENC.STREAM (42_packet_encode_commands.md R129). -/
def execEncStream (mask : Byte) (s : State) : Host.Outcome State Fault Refusal :=
  .next (returnBytes (frameStream mask) s)

/-- ENC.VERSION (42_packet_encode_commands.md R130). -/
def execEncVersion (v : U32) (s : State) : Host.Outcome State Fault Refusal :=
  .next (returnBytes (frameVersion v) s)

/-- ENC.ID (42_packet_encode_commands.md R131). -/
def execEncId (v : U32) (s : State) : Host.Outcome State Fault Refusal :=
  .next (returnBytes (frameId v) s)

/-- ENC.CAL (42_packet_encode_commands.md R132). -/
def execEncCal (ox oy oz sx sy sz : F32) (s : State) : Host.Outcome State Fault Refusal :=
  .next (returnBytes (frameCal ox oy oz sx sy sz) s)

/-- ENC.GPIO_DDR (42_packet_encode_commands.md R133). -/
def execEncGpioDdr (mask : Byte) (s : State) : Host.Outcome State Fault Refusal :=
  .next (returnBytes (frameGpioDdr mask) s)

/-- ENC.GPIO_PORT (42_packet_encode_commands.md R134). -/
def execEncGpioPort (mask : Byte) (s : State) : Host.Outcome State Fault Refusal :=
  .next (returnBytes (frameGpioPort mask) s)

/-- ENC.POWER (42_packet_encode_commands.md R135). -/
def execEncPower (level : Byte) (s : State) : Host.Outcome State Fault Refusal :=
  .next (returnBytes (framePower level) s)

end Sys2Proof.Machine
end

