-- ==== Sys2Proof/Machine/Rx.lean ====
section
/-! DEFINITION. The RXB rows. Their context and operand bytes are chosen by the decoder (30_encoding.md R61); a meaning applies its
row's pseudocode to whatever `S` it is given (log entry 13). -/

namespace Sys2Proof.Machine

/-- RX.UNESC_END: append 0xC0, clear the flag (43_stream_assembler.md R162). -/
def execRxUnescEnd (s : State) : Host.Outcome State Fault Refusal :=
  applyFeed (asmUnescEnd s.par.bufCap s.asm) s

/-- RX.UNESC_ESC: append 0xDB, clear the flag (43_stream_assembler.md R163). -/
def execRxUnescEsc (s : State) : Host.Outcome State Fault Refusal :=
  applyFeed (asmUnescEsc s.par.bufCap s.asm) s

/-- RX.UNESC_LIT: append the byte itself, clear the flag (43_stream_assembler.md R164). -/
def execRxUnescLit (b : Byte) (s : State) : Host.Outcome State Fault Refusal :=
  applyFeed (asmUnescLit s.par.bufCap s.asm b) s

/-- RX.ESC: set the flag, append nothing (43_stream_assembler.md R165). -/
def execRxEsc (s : State) : Host.Outcome State Fault Refusal :=
  applyFeed (asmEsc s.asm) s

/-- RX.END: the terminator (43_stream_assembler.md R166). -/
def execRxEnd (s : State) : Host.Outcome State Fault Refusal :=
  applyFeed (asmEnd s.asm) s

/-- RX.DATA: append the byte (43_stream_assembler.md R167). -/
def execRxData (b : Byte) (s : State) : Host.Outcome State Fault Refusal :=
  applyFeed (asmData s.par.bufCap s.asm b) s

end Sys2Proof.Machine
end

