-- ==== Sys2Proof/Machine/Tx.lean ====
section
/-! DEFINITION. The TXB rows: each emits its wire bytes on `TX_BYTE` and touches no other state (40_frame_codec.md R81 to R84). -/

namespace Sys2Proof.Machine

/-- TX.ESC_END: `DB DC` for a literal FRAME_END (40_frame_codec.md R82). -/
def execTxEscEnd (s : State) : Host.Outcome State Fault Refusal :=
  .next (emitTx [escape, escapedEnd] s)

/-- TX.ESC_ESC: `DB DD` for a literal ESCAPE (40_frame_codec.md R83). -/
def execTxEscEsc (s : State) : Host.Outcome State Fault Refusal :=
  .next (emitTx [escape, escapedEscape] s)

/-- TX.LIT: the byte itself (40_frame_codec.md R81). -/
def execTxLit (b : Byte) (s : State) : Host.Outcome State Fault Refusal :=
  .next (emitTx [b] s)

/-- TX.TERM: the terminator (40_frame_codec.md R84). -/
def execTxTerm (s : State) : Host.Outcome State Fault Refusal :=
  .next (emitTx [frameEnd] s)

end Sys2Proof.Machine
end

