-- ==== Sys2Proof/Machine/Dispatch.lean ====
section
/-! DEFINITION. The meaning of every operation of the table. -/

namespace Sys2Proof.Machine

def exec (i : Instr) (s : State) : Host.Outcome State Fault Refusal :=
  match i with
  | .rxUnescEnd => Sys2Proof.Machine.execRxUnescEnd s
  | .rxUnescEsc => Sys2Proof.Machine.execRxUnescEsc s
  | .rxUnescLit b => Sys2Proof.Machine.execRxUnescLit b s
  | .rxEsc => Sys2Proof.Machine.execRxEsc s
  | .rxEnd => Sys2Proof.Machine.execRxEnd s
  | .rxData b => Sys2Proof.Machine.execRxData b s
  | .txEscEnd => Sys2Proof.Machine.execTxEscEnd s
  | .txEscEsc => Sys2Proof.Machine.execTxEscEsc s
  | .txLit b => Sys2Proof.Machine.execTxLit b s
  | .txTerm => Sys2Proof.Machine.execTxTerm s
  | .decQuat payload => Sys2Proof.Machine.execDecQuat payload s
  | .decAcc payload => Sys2Proof.Machine.execDecAcc payload s
  | .decGyro payload => Sys2Proof.Machine.execDecGyro payload s
  | .decMag payload => Sys2Proof.Machine.execDecMag payload s
  | .decTemperature payload => Sys2Proof.Machine.execDecTemperature payload s
  | .decGpio payload => Sys2Proof.Machine.execDecGpio payload s
  | .decColor payload => Sys2Proof.Machine.execDecColor payload s
  | .decBlink payload => Sys2Proof.Machine.execDecBlink payload s
  | .decIr payload => Sys2Proof.Machine.execDecIr payload s
  | .decStream payload => Sys2Proof.Machine.execDecStream payload s
  | .decVersion payload => Sys2Proof.Machine.execDecVersion payload s
  | .decId payload => Sys2Proof.Machine.execDecId payload s
  | .decCal payload => Sys2Proof.Machine.execDecCal payload s
  | .decGpioDdr payload => Sys2Proof.Machine.execDecGpioDdr payload s
  | .decGpioPort payload => Sys2Proof.Machine.execDecGpioPort payload s
  | .decPower payload => Sys2Proof.Machine.execDecPower payload s
  | .decUnknown tag payload => Sys2Proof.Machine.execDecUnknown tag payload s
  | .decEmpty => Sys2Proof.Machine.execDecEmpty s
  | .encQuat q0 q1 q2 q3 => Sys2Proof.Machine.execEncQuat q0 q1 q2 q3 s
  | .encAcc v0 v1 v2 => Sys2Proof.Machine.execEncAcc v0 v1 v2 s
  | .encGyro v0 v1 v2 => Sys2Proof.Machine.execEncGyro v0 v1 v2 s
  | .encMag v0 v1 v2 => Sys2Proof.Machine.execEncMag v0 v1 v2 s
  | .encGpio v => Sys2Proof.Machine.execEncGpio v s
  | .encColor r g b => Sys2Proof.Machine.execEncColor r g b s
  | .encBlink b0 b1 b2 => Sys2Proof.Machine.execEncBlink b0 b1 b2 s
  | .encIr v => Sys2Proof.Machine.execEncIr v s
  | .encStream mask => Sys2Proof.Machine.execEncStream mask s
  | .encVersion v => Sys2Proof.Machine.execEncVersion v s
  | .encId v => Sys2Proof.Machine.execEncId v s
  | .encCal ox oy oz sx sy sz => Sys2Proof.Machine.execEncCal ox oy oz sx sy sz s
  | .encGpioDdr mask => Sys2Proof.Machine.execEncGpioDdr mask s
  | .encGpioPort mask => Sys2Proof.Machine.execEncGpioPort mask s
  | .encPower level => Sys2Proof.Machine.execEncPower level s
  | .cmdSetColor r g b => Sys2Proof.Machine.execCmdSetColor r g b s
  | .cmdSetStreamingMode quat acc gyro mag temperature gpio => Sys2Proof.Machine.execCmdSetStreamingMode quat acc gyro mag temperature gpio s
  | .cmdSetCalibration ox oy oz sx sy sz => Sys2Proof.Machine.execCmdSetCalibration ox oy oz sx sy sz s
  | .cmdSetGpioDirection f0 f1 f4 f5 f6 f7 => Sys2Proof.Machine.execCmdSetGpioDirection f0 f1 f4 f5 f6 f7 s
  | .cmdSetGpioValue f0 f1 f4 f5 f6 f7 => Sys2Proof.Machine.execCmdSetGpioValue f0 f1 f4 f5 f6 f7 s
  | .cmdSetPower level => Sys2Proof.Machine.execCmdSetPower level s
  | .feed b => Sys2Proof.Machine.execFeed b s
  | .feedChunk c => Sys2Proof.Machine.execFeedChunk c s
  | .asmReset => Sys2Proof.Machine.execAsmReset s
  | .frameEncode payload => Sys2Proof.Machine.execFrameEncode payload s
  | .decode f => Sys2Proof.Machine.execDecode f s
  | .encode p => Sys2Proof.Machine.execEncode p s
  | .transmit p => Sys2Proof.Machine.execTransmit p s
  | .processChunk c => Sys2Proof.Machine.execProcessChunk c s
  | .poll => Sys2Proof.Machine.execPoll s
  | .close => Sys2Proof.Machine.execClose s
  | .xportErr => Sys2Proof.Machine.execXportErr s

end Sys2Proof.Machine
end

