-- ==== Sys2Proof/Machine/Step.lean ====
section
/-! DEFINITION. One step: the consumption of one input event (00_scope.md R6). -/

namespace Sys2Proof.Machine

/-- One step. With no input the block is idle in a legal state (70_reset_and_hazards.md R241). Otherwise the next input
event selects its operation (30_encoding.md R61 to R63), the operation runs, and PacketCodec takes the frames it put on
`FRAME_OUT` (44_pipeline_host.md R180). An event that is no row of the table is refused by name. -/
def step (s : State) : Host.Outcome State Fault Refusal :=
  match s.inputs with
  | [] => .next s
  | e :: rest =>
    match decodeInput s.asm.escaping e with
    | .error r => .refused (rejectRefusal r)
    | .ok i =>
      match exec i (s.setInputs rest) with
      | .next t => .next (deliver t)
      | .fault r => .fault r
      | .refused r => .refused r

/-- `s` with the event of a table word as the next input, and `S.escaping` as the word's row requires where the row has
a context (30_encoding.md R61). Log entries 1 and 15. -/
def State.withFetchWord (s : State) (nbits w : Nat) : State :=
  match (tableInput nbits w).2 with
  | .rxByte b => (s.setAsm { s.asm with escaping := (tableInput nbits w).1 }).setInputs (.rxByte b :: s.inputs)
  | e => s.setInputs (e :: s.inputs)

end Sys2Proof.Machine
end

