-- ==== Sys2Proof/Safety.lean ====
section
/-! DEFINITION. What counts as a good state and a safe run, in the terms the claims use. -/

namespace Sys2Proof

open Machine

/-- The buffer is within its capacity (10_state.md R12): the form of the block's only memory. -/
abbrev Memory.wf (cap : Option Nat) (buf : Frame) : Bool :=
  match cap with
  | none => true
  | some n => decide (buf.length ≤ n)

namespace Machine

/-- `k` more bytes fit in the buffer: always under the default unbounded `BUF_CAP` (70_reset_and_hazards.md R233). -/
def State.roomFor (s : State) (k : Nat) : Prop := ∀ n, s.par.bufCap = some n → s.asm.buf.length + k ≤ n

/-- The buffer is within its capacity and no frame that went out on `FRAME_OUT` is empty (10_state.md R12, R23 (e);
43_stream_assembler.md R170). -/
def State.wf (s : State) : Prop :=
  Memory.wf s.par.bufCap s.asm.buf = true ∧ ∀ f ∈ framesOf s.trace, f ≠ []

end Machine

/-- An event that hands `decode` a frame the assembler did not produce: the TAG rows and DECODE, which are internal
operations a model exposes for testing (44_pipeline_host.md R184). -/
def Input.bypassesAssembler : Input → Bool
  | .frame _ | .decode _ => true
  | .rxByte _ | .txByte _ | .txEnd | .packet _ | .command _ | .feed _ | .feedChunk _ | .asmReset | .frameEncode _
  | .encode _ | .transmit _ | .processChunk _ | .poll | .close | .xportErr => false

namespace Machine

/-- Every frame delivered has its result, in order, and nothing else has one (44_pipeline_host.md R180, R182), while no
waiting event bypasses the assembler. -/
def State.pipelineInv (s : State) : Prop :=
  (∀ e ∈ s.inputs, e.bypassesAssembler = false) ∧ resultsOf s.trace = (framesOf s.trace).map decodeFrame

end Machine

end Sys2Proof
end

