-- ==== Sys2Proof/Certificates/Slice0/Obligations.lean ====
section
/-! DEFINITION. The statements for the provers. Each docstring names the rule of spec/ it formalises. A record update
`{ s with … }` in a conclusion is also the statement's frame: every field it does not name is unchanged. The fields
`trace` and `ret` are the model's own: they hold what the spec's pseudocode emits on the ports and returns to the
caller (log entries 2 and 3), and `inputs`, `reads` and `writes` are what the outside presents (log entries 1, 7, 8). -/

open Sys2Proof Sys2Proof.Machine

/-! ### Reset -/

/-- 10_state.md R24, the values the spec states: `S` is `{[], false}`, the buffer's length is 0, no output event is
pending, and with no input the block waits in that state. -/
def Obligations.ResetGivesTheEmptyNormalAssembler : Prop :=
  State.reset.asm.buf = [] ∧ State.reset.asm.escaping = false ∧ State.reset.asm.buf.length = 0 ∧
    State.reset.trace = [] ∧ State.reset.par.bufCap = none ∧ step State.reset = .next State.reset

/-! ### RXB: the escape state machine -/

/-- 43_stream_assembler.md R162. -/
def Obligations.RxUnescEndAppendsFrameEnd : Prop :=
  ∀ s : State, s.asm.escaping = true → s.roomFor 1 →
    decodeInput s.asm.escaping (.rxByte 0xDC#8) = .ok .rxUnescEnd ∧
    exec .rxUnescEnd s =
      .next { s with asm := { buf := s.asm.buf ++ [0xC0#8], escaping := false }, ret := .frame none }

/-- 43_stream_assembler.md R163. -/
def Obligations.RxUnescEscAppendsEscape : Prop :=
  ∀ s : State, s.asm.escaping = true → s.roomFor 1 →
    decodeInput s.asm.escaping (.rxByte 0xDD#8) = .ok .rxUnescEsc ∧
    exec .rxUnescEsc s =
      .next { s with asm := { buf := s.asm.buf ++ [0xDB#8], escaping := false }, ret := .frame none }

/-- 43_stream_assembler.md R164, 0xC0 and 0xDB included. -/
def Obligations.RxUnescLitAppendsTheByteItself : Prop :=
  ∀ (s : State) (b : Byte), s.asm.escaping = true → b ≠ 0xDC#8 → b ≠ 0xDD#8 → s.roomFor 1 →
    decodeInput s.asm.escaping (.rxByte b) = .ok (.rxUnescLit b) ∧
    exec (.rxUnescLit b) s =
      .next { s with asm := { buf := s.asm.buf ++ [b], escaping := false }, ret := .frame none }

/-- 43_stream_assembler.md R165: the byte is not appended, an empty buffer included. -/
def Obligations.RxEscSetsTheFlagAndAppendsNothing : Prop :=
  ∀ s : State, s.asm.escaping = false →
    decodeInput s.asm.escaping (.rxByte 0xDB#8) = .ok .rxEsc ∧
    exec .rxEsc s = .next { s with asm := { buf := s.asm.buf, escaping := true }, ret := .frame none }

/-- 43_stream_assembler.md R166: the whole buffer as one frame and the reset state after it; an empty buffer changes
nothing. -/
def Obligations.RxEndDeliversTheWholeBufferOrNothing : Prop :=
  ∀ s : State, s.asm.escaping = false →
    decodeInput s.asm.escaping (.rxByte 0xC0#8) = .ok .rxEnd ∧
    (s.asm.buf ≠ [] → exec .rxEnd s =
      .next { s with asm := { buf := [], escaping := false }, trace := s.trace ++ [.frameOut s.asm.buf],
                     ret := .frame (some s.asm.buf) }) ∧
    (s.asm.buf = [] → exec .rxEnd s = .next { s with ret := .frame none })

/-- 43_stream_assembler.md R167, 0xDC and 0xDD included. -/
def Obligations.RxDataAppendsTheByte : Prop :=
  ∀ (s : State) (b : Byte), s.asm.escaping = false → b ≠ 0xDB#8 → b ≠ 0xC0#8 → s.roomFor 1 →
    decodeInput s.asm.escaping (.rxByte b) = .ok (.rxData b) ∧
    exec (.rxData b) s =
      .next { s with asm := { buf := s.asm.buf ++ [b], escaping := false }, ret := .frame none }

/-- 43_stream_assembler.md R161: the four branches in the source's order, with the frame each returns. -/
def Obligations.FeedTakesTheBranchOfTheTransitionFunction : Prop :=
  ∀ (s : State) (b : Byte), s.roomFor 1 →
    exec (.feed b) s =
      if s.asm.escaping then
        .next { s with
          asm := { buf := s.asm.buf ++ [if b = 0xDC#8 then 0xC0#8 else if b = 0xDD#8 then 0xDB#8 else b],
                   escaping := false },
          ret := .frame none }
      else if b = 0xDB#8 then .next { s with asm := { s.asm with escaping := true }, ret := .frame none }
      else if b = 0xC0#8 then
        if s.asm.buf = [] then .next { s with ret := .frame none }
        else .next { s with asm := { buf := [], escaping := false }, trace := s.trace ++ [.frameOut s.asm.buf],
                            ret := .frame (some s.asm.buf) }
      else .next { s with asm := { s.asm with buf := s.asm.buf ++ [b] }, ret := .frame none }

/-- 30_encoding.md R61: FEED of a byte runs exactly the RXB row that the flag and the byte select. -/
def Obligations.FeedRunsTheRowTheByteClassMapSelects : Prop :=
  ∀ (s : State) (b : Byte), ∃ i : Instr, decodeInput s.asm.escaping (.rxByte b) = .ok i ∧
    exec (.feed b) s = exec i s ∧
    i = (if s.asm.escaping then
          if b = 0xDC#8 then .rxUnescEnd else if b = 0xDD#8 then .rxUnescEsc else .rxUnescLit b
        else if b = 0xDB#8 then .rxEsc else if b = 0xC0#8 then .rxEnd else .rxData b)

/-- 70_reset_and_hazards.md R233, under a finite `BUF_CAP`: each of the four appending rows faults on a full buffer, FEED
of a byte faults exactly where its row does, and RX.ESC and RX.END never do. -/
def Obligations.AppendToAFullBufferFaults : Prop :=
  ∀ (s : State) (n : Nat) (b : Byte), s.par.bufCap = some n → s.asm.buf.length = n →
    exec .rxUnescEnd s = .fault .rxOverflow ∧ exec .rxUnescEsc s = .fault .rxOverflow ∧
    exec (.rxUnescLit b) s = .fault .rxOverflow ∧ exec (.rxData b) s = .fault .rxOverflow ∧
    (exec (.feed b) s = .fault .rxOverflow ↔ (s.asm.escaping = true ∨ (b ≠ 0xDB#8 ∧ b ≠ 0xC0#8))) ∧
    (∃ t, exec .rxEsc s = .next t) ∧ ∃ t, exec .rxEnd s = .next t

/-- 10_state.md R11, R13, R23 (b): what one received byte can do to `S`. The flag is set only by 0xDB in NORMAL and
cleared by the next byte; the buffer grows by one cell at its end, or is cleared, or is unchanged. -/
def Obligations.OneByteGrowsOrClearsTheBufferAndTheFlagLastsOneByte : Prop :=
  ∀ (s t : State) (b : Byte), exec (.feed b) s = .next t →
    (s.asm.escaping = true → t.asm.escaping = false) ∧
    (s.asm.escaping = false → (t.asm.escaping = true ↔ b = 0xDB#8)) ∧
    (t.asm.buf = [] ∨ t.asm.buf.length = s.asm.buf.length ∨ t.asm.buf.length = s.asm.buf.length + 1) ∧
    ∀ k, k < s.asm.buf.length → t.asm.buf = [] ∨ t.asm.buf[k]? = s.asm.buf[k]?

/-! ### Chunks -/

/-- 43_stream_assembler.md R168: FEED_CHUNK of a byte and a rest is FEED of the byte and FEED_CHUNK of the rest, the
frames collected in order; the empty chunk returns no frame and changes nothing. -/
def Obligations.FeedChunkIsFeedOfEachByteInOrder : Prop :=
  (∀ s : State, exec (.feedChunk []) s = .next { s with ret := .frames [] }) ∧
  (∀ (s t u : State) (b : Byte) (c : List Byte) (f : Option Frame) (fs : List Frame),
    exec (.feed b) s = .next t → t.ret = .frame f → exec (.feedChunk c) t = .next u → u.ret = .frames fs →
    exec (.feedChunk (b :: c)) s = .next { u with ret := .frames (f.toList ++ fs) }) ∧
  (∀ (s : State) (c : List Byte), s.roomFor c.length → ∃ t fs, exec (.feedChunk c) s = .next t ∧
    t.ret = .frames fs ∧ fs.length ≤ c.count 0xC0#8 ∧
    t = { s with asm := t.asm, trace := s.trace ++ fs.map .frameOut, ret := .frames fs })

/-- 43_stream_assembler.md R169: however the stream is cut into chunks, the final assembler, the frames and the results
are those of the stream fed at once; a finite buffer that overflows does so either way. -/
def Obligations.ChunkBoundariesCarryNoInformation : Prop :=
  ∀ (s : State) (cs : List (List Byte)),
    match core.run cs.length (s.setInputs (cs.map .feedChunk)), step (s.setInputs [.feedChunk cs.flatten]) with
    | .next t, .next u =>
      t.asm = u.asm ∧ framesOf t.trace = framesOf u.trace ∧ resultsOf t.trace = resultsOf u.trace
    | .fault r, .fault q => r = q
    | _, _ => False

/-- 43_stream_assembler.md R173: from an empty or non-empty NORMAL buffer, feeding `Encode(p)` returns what was buffered
followed by `p`, and from the reset state a sequence of non-empty payloads comes back whole. -/
def Obligations.AssemblerInvertsTheFrameCodec : Prop :=
  (∀ (s : State) (u p : List Byte), s.par.bufCap = none → s.asm = { buf := u, escaping := false } →
    ∃ t, exec (.feedChunk (frameEncode p)) s = .next t ∧ t.asm = { buf := [], escaping := false } ∧
      t.ret = .frames (if u ++ p = [] then [] else [u ++ p])) ∧
  (∀ (s : State) (ps : List (List Byte)), s.par.bufCap = none → s.asm = { buf := [], escaping := false } →
    (∀ p ∈ ps, p ≠ []) →
    ∃ t, exec (.feedChunk (ps.flatMap frameEncode)) s = .next t ∧ t.asm = { buf := [], escaping := false } ∧
      t.ret = .frames ps)

/-- 43_stream_assembler.md R174: terminators with nothing buffered yield no frame and change nothing. -/
def Obligations.ExtraTerminatorsAreAbsorbed : Prop :=
  ∀ (s : State) (k j : Nat) (p : List Byte), s.par.bufCap = none → s.asm = { buf := [], escaping := false } →
    exec (.feedChunk (List.replicate k 0xC0#8)) s = .next { s with ret := .frames [] } ∧
    (p ≠ [] → ∃ t, exec (.feedChunk (List.replicate k 0xC0#8 ++ frameEncode p ++ List.replicate j 0xC0#8)) s = .next t ∧
      t.asm = { buf := [], escaping := false } ∧ t.ret = .frames [p])

/-- 43_stream_assembler.md R175: ESCAPE then FRAME_END is the data byte 0xC0 and ends no frame; the damaged frame and
the next one come out as one, and the state is then the reset state. -/
def Obligations.TruncatedEscapeMergesTwoFrames : Prop :=
  ∀ (s : State) (u p : List Byte), s.par.bufCap = none → s.asm = { buf := u, escaping := false } →
    (∃ t, exec (.feedChunk [0xDB#8, 0xC0#8]) s = .next t ∧
      t.asm = { buf := u ++ [0xC0#8], escaping := false } ∧ t.ret = .frames []) ∧
    ∃ t, exec (.feedChunk (0xDB#8 :: 0xC0#8 :: frameEncode p)) s = .next t ∧
      t.asm = { buf := [], escaping := false } ∧ t.ret = .frames [u ++ [0xC0#8] ++ p]

/-- 43_stream_assembler.md R171, its reading aid: one 0xC0 from NORMAL, two from ESCAPED, restore the reset state. -/
def Obligations.TwoTerminatorsRestoreTheResetState : Prop :=
  ∀ s : State, s.roomFor 1 →
    (s.asm.escaping = false → ∃ t, exec (.feedChunk [0xC0#8]) s = .next t ∧ t.asm = Assembler.reset) ∧
    ∃ t, exec (.feedChunk [0xC0#8, 0xC0#8]) s = .next t ∧ t.asm = Assembler.reset

/-! ### TXB and the frame codec -/

/-- 40_frame_codec.md R81, R82, R83, R84, with the outbound map 30_encoding.md R62. -/
def Obligations.TxRowsEmitTheirWireBytes : Prop :=
  ∀ s : State,
    (∀ b : Byte, b ≠ 0xC0#8 → b ≠ 0xDB#8 → esc b = [b] ∧ decodeInput s.asm.escaping (.txByte b) = .ok (.txLit b) ∧
      exec (.txLit b) s = .next { s with trace := s.trace ++ [.txByte b], ret := .nothing }) ∧
    (esc 0xC0#8 = [0xDB#8, 0xDC#8] ∧ decodeInput s.asm.escaping (.txByte 0xC0#8) = .ok .txEscEnd ∧
      exec .txEscEnd s =
        .next { s with trace := s.trace ++ [.txByte 0xDB#8, .txByte 0xDC#8], ret := .nothing }) ∧
    (esc 0xDB#8 = [0xDB#8, 0xDD#8] ∧ decodeInput s.asm.escaping (.txByte 0xDB#8) = .ok .txEscEsc ∧
      exec .txEscEsc s =
        .next { s with trace := s.trace ++ [.txByte 0xDB#8, .txByte 0xDD#8], ret := .nothing }) ∧
    (decodeInput s.asm.escaping .txEnd = .ok .txTerm ∧
      exec .txTerm s = .next { s with trace := s.trace ++ [.txByte 0xC0#8], ret := .nothing })

/-- 40_frame_codec.md R85: each byte's escape in order, one terminator, and the length law; any payload, the empty one
included. -/
def Obligations.FrameEncodeReturnsTheWireForm : Prop :=
  ∀ (s : State) (p : List Byte), ∃ w : List Byte,
    exec (.frameEncode p) s = .next { s with ret := .bytes w } ∧
    w = p.flatMap (fun b => if b = 0xC0#8 then [0xDB#8, 0xDC#8] else if b = 0xDB#8 then [0xDB#8, 0xDD#8] else [b])
      ++ [0xC0#8] ∧
    w.length = p.length + (p.count 0xC0#8 + p.count 0xDB#8) + 1

/-- 40_frame_codec.md R86: the only 0xC0 is the last byte, every 0xDB is followed by 0xDC or 0xDD (so no unpaired 0xDB
stands before the terminator), and `Encode` is injective. -/
def Obligations.WireFormHasOneTerminatorAndIsInjective : Prop :=
  (∀ p : List Byte, (frameEncode p).getLast? = some 0xC0#8 ∧
    (∀ k, k + 1 < (frameEncode p).length → (frameEncode p)[k]? ≠ some 0xC0#8) ∧
    ∀ k, (frameEncode p)[k]? = some 0xDB#8 →
      (frameEncode p)[k + 1]? = some 0xDC#8 ∨ (frameEncode p)[k + 1]? = some 0xDD#8) ∧
  ∀ p q : List Byte, frameEncode p = frameEncode q → p = q

/-- 40_frame_codec.md R87 (`unesc`), R88, which the spec marks derived (`unesc` undoes an escape pair), and R81 to R83
(the form of `esc`): the byte-by-byte inverse of escaping. -/
def Obligations.UnescapeInvertsEscape : Prop :=
  unesc 0xDC#8 = 0xC0#8 ∧ unesc 0xDD#8 = 0xDB#8 ∧ (∀ b : Byte, b ≠ 0xDC#8 → b ≠ 0xDD#8 → unesc b = b) ∧
  (∀ (b x : Byte), esc b = [0xDB#8, x] → unesc x = b) ∧
  (∀ b : Byte, (∃ x, esc b = [0xDB#8, x]) ∨ (esc b = [b] ∧ b ≠ 0xC0#8 ∧ b ≠ 0xDB#8))

/-- 40_frame_codec.md R85 with R81 to R84: presenting a payload's bytes and its end to the TXB rows, one step each,
puts the wire form of FRAME_ENCODE on `TX_BYTE` and does nothing else. -/
def Obligations.TxRowsInSequenceEmitTheWireForm : Prop :=
  ∀ (s : State) (p : List Byte),
    core.run (p.length + 1) (s.setInputs (p.map .txByte ++ [.txEnd])) =
      .next { s with inputs := [], trace := s.trace ++ (frameEncode p).map .txByte, ret := .nothing }

/-! ### Field assembly -/

/-- 20_memory.md R35, 30_encoding.md R56, R57, R58: big-endian assembly and its inverse, and the integer of an `s16`
pattern. Two's complement is log entry 9 (PRESUMED, 93_implementation_defined.md G2). -/
def Obligations.FieldsAreBigEndianAndSigned16IsTwosComplement : Prop :=
  (∀ b0 b1 : Byte, (be16 b0 b1).toNat = b0.toNat * 2 ^ 8 + b1.toNat) ∧
  (∀ b0 b1 b2 b3 : Byte,
    (be32 b0 b1 b2 b3).toNat = b0.toNat * 2 ^ 24 + b1.toNat * 2 ^ 16 + b2.toNat * 2 ^ 8 + b3.toNat) ∧
  (∀ v : BitVec 16, ∃ b0 b1, bytesBE16 v = [b0, b1] ∧ be16 b0 b1 = v) ∧
  (∀ v : BitVec 32, ∃ b0 b1 b2 b3, bytesBE32 v = [b0, b1, b2, b3] ∧ be32 b0 b1 b2 b3 = v) ∧
  (∀ p : S16, sext16 p = if p.toNat < 32768 then (p.toNat : Int) else (p.toNat : Int) - 65536) ∧
  (∀ i : Int, -32768 ≤ i → i ≤ 32767 → sext16 (trunc16 i) = i) ∧ ∀ p : S16, trunc16 (sext16 p) = p

/-! ### TAG: the demultiplexer -/

/-- 30_encoding.md R63: byte 0 of a frame selects its row, all 8 bits compared; the empty frame is DEC.EMPTY
(41_packet_decode.md R92). -/
def Obligations.TheTagSelectsTheRowByAllEightBits : Prop :=
  ∀ (escaping : Bool) (tag : Byte) (payload : List Byte),
    decodeInput escaping (.frame []) = .ok .decEmpty ∧
    decodeInput escaping (.frame (tag :: payload)) = .ok (
      if tag = 0x00#8 then .decQuat payload else if tag = 0x01#8 then .decAcc payload
      else if tag = 0x02#8 then .decGyro payload else if tag = 0x03#8 then .decMag payload
      else if tag = 0x04#8 then .decTemperature payload else if tag = 0x05#8 then .decGpio payload
      else if tag = 0x06#8 then .decColor payload else if tag = 0x07#8 then .decBlink payload
      else if tag = 0x08#8 then .decIr payload else if tag = 0x09#8 then .decStream payload
      else if tag = 0x0A#8 then .decVersion payload else if tag = 0x0B#8 then .decId payload
      else if tag = 0x0C#8 then .decCal payload else if tag = 0x0D#8 then .decGpioDdr payload
      else if tag = 0x0E#8 then .decGpioPort payload else if tag = 0x0F#8 then .decPower payload
      else .decUnknown tag payload)

/-- 41_packet_decode.md R91: the empty frame, then the tag, then the length against the layout table of 30_encoding.md
R54, then the row of the tag. The state is otherwise unchanged. -/
def Obligations.DecodeTestsTheTagThenTheLength : Prop :=
  ∀ (s : State) (F : Frame), ∃ r : Result,
    exec (.decode F) s = .next { s with trace := s.trace ++ [.resultOut r], ret := .result r } ∧
    exec (.decode F) s = exec (decodeTag F) s ∧
    (F = [] → r = .err Config.emptyFrameErr) ∧
    ∀ (tag : Byte) (rest : List Byte), F = tag :: rest →
      ((tag.toNat = 4 ∨ 15 < tag.toNat) → r = .err .unknownType) ∧
      ∀ w : Nat, (tag.toNat, w) ∈ [(0, 16), (1, 6), (2, 6), (3, 6), (5, 1), (6, 3), (7, 3), (8, 1), (9, 1), (10, 4),
          (11, 4), (12, 24), (13, 1), (14, 1), (15, 1)] →
        (rest.length ≠ w → r = .err .sizeMismatch) ∧ (rest.length = w → ∃ p, r = .ok p ∧ packetTag p = tag)

/-- 41_packet_decode.md R93, R105: the four and six 32-bit patterns, first byte most significant. -/
def Obligations.FloatRowsReadTheirPatterns : Prop :=
  ∀ s : State,
    (∀ a0 a1 a2 a3 b0 b1 b2 b3 c0 c1 c2 c3 d0 d1 d2 d3 : Byte,
      exec (.decQuat [a0, a1, a2, a3, b0, b1, b2, b3, c0, c1, c2, c3, d0, d1, d2, d3]) s =
        .next (emitResult (.ok (.quat (be32 a0 a1 a2 a3) (be32 b0 b1 b2 b3) (be32 c0 c1 c2 c3) (be32 d0 d1 d2 d3))) s)) ∧
    (∀ payload : List Byte, payload.length ≠ 16 →
      exec (.decQuat payload) s = .next (emitResult (.err .sizeMismatch) s)) ∧
    (∀ a0 a1 a2 a3 b0 b1 b2 b3 c0 c1 c2 c3 d0 d1 d2 d3 e0 e1 e2 e3 f0 f1 f2 f3 : Byte,
      exec (.decCal [a0, a1, a2, a3, b0, b1, b2, b3, c0, c1, c2, c3, d0, d1, d2, d3, e0, e1, e2, e3, f0, f1, f2, f3]) s =
        .next (emitResult (.ok (.cal (be32 a0 a1 a2 a3) (be32 b0 b1 b2 b3) (be32 c0 c1 c2 c3) (be32 d0 d1 d2 d3)
          (be32 e0 e1 e2 e3) (be32 f0 f1 f2 f3))) s)) ∧
    ∀ payload : List Byte, payload.length ≠ 24 →
      exec (.decCal payload) s = .next (emitResult (.err .sizeMismatch) s)

/-- 41_packet_decode.md R94, R95, R96: three signed 16-bit fields, each `sext_16` of its big-endian pair. -/
def Obligations.SignedRowsReadThreeValues : Prop :=
  ∀ s : State,
    (∀ a0 a1 b0 b1 c0 c1 : Byte,
      exec (.decAcc [a0, a1, b0, b1, c0, c1]) s =
        .next (emitResult (.ok (.acc (be16 a0 a1) (be16 b0 b1) (be16 c0 c1))) s) ∧
      exec (.decGyro [a0, a1, b0, b1, c0, c1]) s =
        .next (emitResult (.ok (.gyro (be16 a0 a1) (be16 b0 b1) (be16 c0 c1))) s) ∧
      exec (.decMag [a0, a1, b0, b1, c0, c1]) s =
        .next (emitResult (.ok (.mag (be16 a0 a1) (be16 b0 b1) (be16 c0 c1))) s)) ∧
    (∀ a0 a1 : Byte, sext16 (be16 a0 a1) =
      if a0.toNat * 256 + a1.toNat < 32768 then (a0.toNat * 256 + a1.toNat : Int)
      else (a0.toNat * 256 + a1.toNat : Int) - 65536) ∧
    ∀ payload : List Byte, payload.length ≠ 6 →
      exec (.decAcc payload) s = .next (emitResult (.err .sizeMismatch) s) ∧
      exec (.decGyro payload) s = .next (emitResult (.err .sizeMismatch) s) ∧
      exec (.decMag payload) s = .next (emitResult (.err .sizeMismatch) s)

/-- 41_packet_decode.md R98, R101, R102, R106, R107, R108: the one-byte payloads, every byte value, unused mask bits
preserved. -/
def Obligations.OneByteRowsReadTheByte : Prop :=
  ∀ s : State,
    (∀ v : Byte,
      exec (.decGpio [v]) s = .next (emitResult (.ok (.gpio v)) s) ∧
      exec (.decIr [v]) s = .next (emitResult (.ok (.ir v)) s) ∧
      exec (.decStream [v]) s = .next (emitResult (.ok (.stream v)) s) ∧
      exec (.decGpioDdr [v]) s = .next (emitResult (.ok (.gpioDdr v)) s) ∧
      exec (.decGpioPort [v]) s = .next (emitResult (.ok (.gpioPort v)) s) ∧
      exec (.decPower [v]) s = .next (emitResult (.ok (.power v)) s)) ∧
    ∀ payload : List Byte, payload.length ≠ 1 →
      exec (.decGpio payload) s = .next (emitResult (.err .sizeMismatch) s) ∧
      exec (.decIr payload) s = .next (emitResult (.err .sizeMismatch) s) ∧
      exec (.decStream payload) s = .next (emitResult (.err .sizeMismatch) s) ∧
      exec (.decGpioDdr payload) s = .next (emitResult (.err .sizeMismatch) s) ∧
      exec (.decGpioPort payload) s = .next (emitResult (.err .sizeMismatch) s) ∧
      exec (.decPower payload) s = .next (emitResult (.err .sizeMismatch) s)

/-- 41_packet_decode.md R99, R100, R103, R104: the three-byte payloads in wire order and the 32-bit words. -/
def Obligations.ColorBlinkVersionAndIdRowsReadTheirFields : Prop :=
  ∀ s : State,
    (∀ x y z : Byte,
      exec (.decColor [x, y, z]) s = .next (emitResult (.ok (.color x y z)) s) ∧
      exec (.decBlink [x, y, z]) s = .next (emitResult (.ok (.blink x y z)) s)) ∧
    (∀ b0 b1 b2 b3 : Byte,
      exec (.decVersion [b0, b1, b2, b3]) s = .next (emitResult (.ok (.version (be32 b0 b1 b2 b3))) s) ∧
      exec (.decId [b0, b1, b2, b3]) s = .next (emitResult (.ok (.id (be32 b0 b1 b2 b3))) s)) ∧
    (∀ payload : List Byte, payload.length ≠ 3 →
      exec (.decColor payload) s = .next (emitResult (.err .sizeMismatch) s) ∧
      exec (.decBlink payload) s = .next (emitResult (.err .sizeMismatch) s)) ∧
    ∀ payload : List Byte, payload.length ≠ 4 →
      exec (.decVersion payload) s = .next (emitResult (.err .sizeMismatch) s) ∧
      exec (.decId payload) s = .next (emitResult (.err .sizeMismatch) s)

/-- 41_packet_decode.md R97, R109: UnknownType at every length, all 8 bits of the tag compared. -/
def Obligations.TemperatureAndUnknownTagsAreUnknownTypeAtEveryLength : Prop :=
  ∀ (s : State) (payload : List Byte),
    exec (.decTemperature payload) s = .next (emitResult (.err .unknownType) s) ∧
    decodeInput s.asm.escaping (.frame (0x04#8 :: payload)) = .ok (.decTemperature payload) ∧
    (∀ tag : Byte, 16 ≤ tag.toNat → decodeInput s.asm.escaping (.frame (tag :: payload)) = .ok (.decUnknown tag payload) ∧
      exec (.decUnknown tag payload) s = .next (emitResult (.err .unknownType) s))

/-- 41_packet_decode.md R110 (b), 60_exceptions.md R199, R203: what every TAG row does, its error included, is one
result on `RESULT_OUT` and to the caller; `S` and every other field are unchanged. It is the `emitResult` of the
statements above. DEC.EMPTY's result is the error the spec leaves open (R92, log entry 6). -/
def Obligations.EveryTagRowOnlyEmitsItsResult : Prop :=
  (∀ (s : State) (r : Result), emitResult r s = { s with trace := s.trace ++ [.resultOut r], ret := .result r }) ∧
  (∀ s : State, exec .decEmpty s = .next (emitResult (.err Config.emptyFrameErr) s)) ∧
  ∀ (i : Instr) (s : State), (tableRow i).format = .tag →
    ∃ r : Result, exec i s = .next { s with trace := s.trace ++ [.resultOut r], ret := .result r } ∧
      ∀ u : State, exec i u = .next { u with trace := u.trace ++ [.resultOut r], ret := .result r }

/-- 41_packet_decode.md R110 (e): `decode` answers Ok exactly on the frames whose tag has a layout and whose length is
1 + W(tag), and never on the empty frame. -/
def Obligations.DecodeAcceptsExactlyTheWellFormedFrames : Prop :=
  ∀ F : Frame, (∃ p, decodeFrame F = .ok p) ↔
    ∃ (tag : Byte) (w : Nat), F.head? = some tag ∧ payloadWidth? tag = some w ∧ F.length = 1 + w

/-! ### PKT: encode -/

/-- 42_packet_encode_commands.md R121, R122, R123, R124, R130, R131, R132: tag, then each field big-endian. -/
def Obligations.WideEncodersReturnBigEndianFrames : Prop :=
  ∀ (s : State),
    (∀ q0 q1 q2 q3 : F32, exec (.encQuat q0 q1 q2 q3) s =
      .next { s with ret := .bytes ([0x00#8] ++ bytesBE32 q0 ++ bytesBE32 q1 ++ bytesBE32 q2 ++ bytesBE32 q3) }) ∧
    (∀ v0 v1 v2 : S16,
      exec (.encAcc v0 v1 v2) s = .next { s with ret := .bytes ([0x01#8] ++ bytesBE16 (trunc16 (sext16 v0))
        ++ bytesBE16 (trunc16 (sext16 v1)) ++ bytesBE16 (trunc16 (sext16 v2))) } ∧
      exec (.encGyro v0 v1 v2) s = .next { s with ret := .bytes ([0x02#8] ++ bytesBE16 (trunc16 (sext16 v0))
        ++ bytesBE16 (trunc16 (sext16 v1)) ++ bytesBE16 (trunc16 (sext16 v2))) } ∧
      exec (.encMag v0 v1 v2) s = .next { s with ret := .bytes ([0x03#8] ++ bytesBE16 (trunc16 (sext16 v0))
        ++ bytesBE16 (trunc16 (sext16 v1)) ++ bytesBE16 (trunc16 (sext16 v2))) }) ∧
    (∀ v : U32, exec (.encVersion v) s = .next { s with ret := .bytes ([0x0A#8] ++ bytesBE32 v) } ∧
      exec (.encId v) s = .next { s with ret := .bytes ([0x0B#8] ++ bytesBE32 v) }) ∧
    ∀ ox oy oz sx sy sz : F32, exec (.encCal ox oy oz sx sy sz) s =
      .next { s with ret := .bytes ([0x0C#8] ++ bytesBE32 ox ++ bytesBE32 oy ++ bytesBE32 oz ++ bytesBE32 sx
        ++ bytesBE32 sy ++ bytesBE32 sz) }

/-- 42_packet_encode_commands.md R125, R126, R127, R128, R129, R133, R134, R135. -/
def Obligations.ByteEncodersReturnTagThenBytes : Prop :=
  ∀ (s : State) (x y z : Byte),
    exec (.encGpio x) s = .next { s with ret := .bytes [0x05#8, x] } ∧
    exec (.encColor x y z) s = .next { s with ret := .bytes [0x06#8, x, y, z] } ∧
    exec (.encBlink x y z) s = .next { s with ret := .bytes [0x07#8, x, y, z] } ∧
    exec (.encIr x) s = .next { s with ret := .bytes [0x08#8, x] } ∧
    exec (.encStream x) s = .next { s with ret := .bytes [0x09#8, x] } ∧
    exec (.encGpioDdr x) s = .next { s with ret := .bytes [0x0D#8, x] } ∧
    exec (.encGpioPort x) s = .next { s with ret := .bytes [0x0E#8, x] } ∧
    exec (.encPower x) s = .next { s with ret := .bytes [0x0F#8, x] }

/-- 42_packet_encode_commands.md R120: ENCODE runs the row of the packet's constructor, returns an unescaped frame with
no terminator added, and the frame's length is 1 + W(tag). -/
def Obligations.EncodeReturnsTheExactWidthFrameOfThePacket : Prop :=
  ∀ (s : State) (p : Packet), ∃ F : Frame,
    exec (.encode p) s = .next { s with ret := .bytes F } ∧ exec (.encode p) s = exec (encRow p) s ∧
    F.head? = some (packetTag p) ∧ payloadWidth? (packetTag p) = some (F.length - 1) ∧ 2 ≤ F.length

/-- 42_packet_encode_commands.md R137: both halves of the round trip, as operations. -/
def Obligations.EncodeAndDecodeAreInverse : Prop :=
  ∀ s : State,
    (∀ (p : Packet) (t u : State) (F : Frame), exec (.encode p) s = .next t → t.ret = .bytes F →
      exec (.decode F) t = .next u → u.ret = .result (.ok p)) ∧
    ∀ (F : Frame) (p : Packet) (t u : State), exec (.decode F) s = .next t → t.ret = .result (.ok p) →
      exec (.encode p) t = .next u → u.ret = .bytes F

/-! ### Commands and transmit -/

/-- 42_packet_encode_commands.md R140: where the transport takes the write, the whole wire form goes out on `TX_BYTE`
contiguously and nothing of the block's state changes. -/
def Obligations.TransmitEmitsTheWholeWireForm : Prop :=
  ∀ (s : State) (p : Packet), s.writes.head? ≠ some .failed →
    exec (.transmit p) s =
      .next { s with writes := s.writes.tail, trace := s.trace ++ (frameEncode (encodePacket p)).map .txByte,
                     ret := .nothing }

/-- 42_packet_encode_commands.md R142, R144, R147: the frame each command transmits, on the wire. -/
def Obligations.PlainCommandsTransmitTheirPacket : Prop :=
  ∀ s : State, s.writes.head? ≠ some .failed →
    (∀ r g b : Byte, exec (.cmdSetColor r g b) s =
      .next { s with writes := s.writes.tail, trace := s.trace ++ (frameEncode [0x06#8, r, g, b]).map .txByte,
                     ret := .nothing }) ∧
    (∀ ox oy oz sx sy sz : F32, exec (.cmdSetCalibration ox oy oz sx sy sz) s =
      .next { s with
        writes := s.writes.tail,
        trace := s.trace ++ (frameEncode ([0x0C#8] ++ bytesBE32 ox ++ bytesBE32 oy ++ bytesBE32 oz ++ bytesBE32 sx
          ++ bytesBE32 sy ++ bytesBE32 sz)).map .txByte,
        ret := .nothing }) ∧
    ∀ level : Byte, exec (.cmdSetPower level) s =
      .next { s with writes := s.writes.tail, trace := s.trace ++ (frameEncode [0x0F#8, level]).map .txByte,
                     ret := .nothing }

/-- 42_packet_encode_commands.md R141, R143, R145: the mask byte each command transmits, bit by bit. -/
def Obligations.MaskCommandsPlaceEachFlagAtItsBit : Prop :=
  ∀ s : State, s.writes.head? ≠ some .failed →
    (∀ quat acc gyro mag temperature gpio : Bool, ∃ m : Byte,
      exec (.cmdSetStreamingMode quat acc gyro mag temperature gpio) s =
        .next { s with writes := s.writes.tail, trace := s.trace ++ (frameEncode [0x09#8, m]).map .txByte,
                       ret := .nothing } ∧
      m.getLsbD 0 = quat ∧ m.getLsbD 1 = acc ∧ m.getLsbD 2 = gyro ∧ m.getLsbD 3 = mag ∧ m.getLsbD 4 = temperature ∧
      m.getLsbD 5 = gpio ∧ m.getLsbD 6 = false ∧ m.getLsbD 7 = false) ∧
    ∀ f0 f1 f4 f5 f6 f7 : Bool, ∃ m : Byte,
      exec (.cmdSetGpioDirection f0 f1 f4 f5 f6 f7) s =
        .next { s with writes := s.writes.tail, trace := s.trace ++ (frameEncode [0x0D#8, m]).map .txByte,
                       ret := .nothing } ∧
      m.getLsbD 0 = f0 ∧ m.getLsbD 1 = f1 ∧ m.getLsbD 2 = false ∧ m.getLsbD 3 = false ∧ m.getLsbD 4 = f4 ∧
      m.getLsbD 5 = f5 ∧ m.getLsbD 6 = f6 ∧ m.getLsbD 7 = f7

/-- `set_gpio_value` transmits GPIO_PORT of the mask SET_GPIO_DIRECTION builds. Its argument list, the same six booleans,
is the spec's own decision 92_eei_decisions.md D25 (log entry 11). -/
def Obligations.SetGpioValuePlacesEachFlagAtItsBit : Prop :=
  ∀ (s : State) (f0 f1 f4 f5 f6 f7 : Bool), s.writes.head? ≠ some .failed →
    ∃ m : Byte,
      exec (.cmdSetGpioValue f0 f1 f4 f5 f6 f7) s =
        .next { s with writes := s.writes.tail, trace := s.trace ++ (frameEncode [0x0E#8, m]).map .txByte,
                       ret := .nothing } ∧
      m.getLsbD 0 = f0 ∧ m.getLsbD 1 = f1 ∧ m.getLsbD 2 = false ∧ m.getLsbD 3 = false ∧ m.getLsbD 4 = f4 ∧
      m.getLsbD 5 = f5 ∧ m.getLsbD 6 = f6 ∧ m.getLsbD 7 = f7

/-- 42_packet_encode_commands.md R149, R148: a word on `CMD_IN` is one of the six commands or nothing; no other
operation is reachable there. -/
def Obligations.TheCommandSetIsClosed : Prop :=
  ∀ (escaping : Bool) (w : Frame) (i : Instr), decodeInput escaping (.command w) = .ok i →
    (∃ r g b, i = .cmdSetColor r g b) ∨ (∃ a b c d e f, i = .cmdSetStreamingMode a b c d e f) ∨
    (∃ a b c d e f, i = .cmdSetCalibration a b c d e f) ∨ (∃ a b c d e f, i = .cmdSetGpioDirection a b c d e f) ∨
    (∃ a b c d e f, i = .cmdSetGpioValue a b c d e f) ∨ ∃ level, i = .cmdSetPower level

/-! ### Control events and errors -/

/-- 43_stream_assembler.md R172: RESET and CLOSE leave the reset assembler, a pending escape dropped too, and emit
nothing; a TransportError discards likewise (what it reports is the next statement). -/
def Obligations.ResetAndCloseDiscardAndEmitNothing : Prop :=
  ∀ s : State,
    exec .asmReset s = .next { s with asm := { buf := [], escaping := false }, ret := .nothing } ∧
    exec .close s = .next { s with asm := { buf := [], escaping := false }, ret := .nothing } ∧
    ∃ t, exec .xportErr s = .next t ∧ t.asm = { buf := [], escaping := false }

/-- 60_exceptions.md R198: a TransportError by itself, on a POLL's read or on the write of a TRANSMIT or a command,
discards `S`, puts Err(TransportError) on `ERR_OUT`, and delivers nothing else. That a failed write has put no byte on
`TX_BYTE` is read from 92_eei_decisions.md D17 (log entry 8, DEDUCED). -/
def Obligations.TransportErrorsDiscardAndReport : Prop :=
  ∀ (s : State) (rest : List ReadReply) (ws : List WriteReply) (p : Packet),
    exec .xportErr s =
      .next { s with asm := { buf := [], escaping := false }, trace := s.trace ++ [.errOut .transportError],
                     ret := .nothing } ∧
    (s.reads = .failed :: rest → exec .poll s =
      .next { s with asm := { buf := [], escaping := false }, reads := rest,
                     trace := s.trace ++ [.errOut .transportError], ret := .nothing }) ∧
    (s.writes = .failed :: ws → ∀ i : Instr, i = .transmit p ∨ (tableRow i).format = .cmd → exec i s =
      .next { s with asm := { buf := [], escaping := false }, writes := ws,
                     trace := s.trace ++ [.errOut .transportError], ret := .nothing })

/-- 42_packet_encode_commands.md R140, 60_exceptions.md R198: each command is TRANSMIT of its packet, a failed write
included. -/
def Obligations.EveryCommandIsATransmit : Prop :=
  ∀ (s : State) (r g b : Byte) (v0 v1 v2 v3 v4 v5 : F32) (f0 f1 f2 f3 f4 f5 : Bool),
    exec (.cmdSetColor r g b) s = exec (.transmit (.color r g b)) s ∧
    exec (.cmdSetPower r) s = exec (.transmit (.power r)) s ∧
    exec (.cmdSetCalibration v0 v1 v2 v3 v4 v5) s = exec (.transmit (.cal v0 v1 v2 v3 v4 v5)) s ∧
    exec (.cmdSetStreamingMode f0 f1 f2 f3 f4 f5) s = exec (.transmit (.stream (streamMask f0 f1 f2 f3 f4 f5))) s ∧
    exec (.cmdSetGpioDirection f0 f1 f2 f3 f4 f5) s = exec (.transmit (.gpioDdr (gpioMask f0 f1 f2 f3 f4 f5))) s ∧
    exec (.cmdSetGpioValue f0 f1 f2 f3 f4 f5) s = exec (.transmit (.gpioPort (gpioMask f0 f1 f2 f3 f4 f5))) s

/-- 44_pipeline_host.md R180: FEED_CHUNK, then one result per frame, in frame order; errors stop nothing. -/
def Obligations.ProcessChunkDecodesEveryFrameInOrder : Prop :=
  ∀ (s : State) (c : List Byte),
    (∀ (u : State) (fs : List Frame), exec (.feedChunk c) s = .next u → u.ret = .frames fs →
      ∃ t, exec (.processChunk c) s = .next t ∧ t.asm = u.asm ∧ t.ret = .results (fs.map decodeFrame) ∧
        framesOf t.trace = framesOf s.trace ++ fs ∧ resultsOf t.trace = resultsOf s.trace ++ fs.map decodeFrame ∧
        t = { s with asm := u.asm, trace := t.trace, ret := .results (fs.map decodeFrame) } ∧
        txBytesOf t.trace = txBytesOf s.trace ∧ errorsOf t.trace = errorsOf s.trace) ∧
    (s.roomFor c.length → ∃ t, exec (.processChunk c) s = .next t)

/-- 44_pipeline_host.md R181: one read of at most `READ_MAX` bytes, then PROCESS_CHUNK of it; no bytes waiting is an
empty read, which returns no result. What a read over `READ_MAX` leaves is log entry 5. -/
def Obligations.PollProcessesOneBoundedRead : Prop :=
  ∀ s : State,
    (s.reads = [] → exec .poll s = .next { s with ret := .results [] }) ∧
    ∀ (c : List Byte) (rest : List ReadReply), s.reads = .bytes c :: rest →
      ((∀ n, s.par.readMax = some n → c.length ≤ n) →
        exec .poll s = exec (.processChunk c) { s with reads := rest } ∧
        (s.roomFor c.length → ∃ t, exec .poll s = .next t)) ∧
      ∀ n, s.par.readMax = some n → n < c.length →
        exec .poll s = exec (.processChunk (c.take n)) { s with reads := .bytes (c.drop n) :: rest }

/-- 44_pipeline_host.md R185: what any sequence of packets puts on `TX_BYTE`, fed under any chunking to a block in its
reset state, yields Ok of exactly those packets in order and ends in the reset state; and of each wire form
`extract_frame` is the packet's frame, which decodes to the packet. -/
def Obligations.LoopbackReturnsThePacketsSent : Prop :=
  ∀ (s : State) (ps : List Packet), s.par.bufCap = none → s.asm = Assembler.reset → s.writes = [] →
    ∃ t, core.run ps.length (s.setInputs (ps.map .transmit)) = .next t ∧ t.asm = Assembler.reset ∧
      ∃ w, txBytesOf t.trace = txBytesOf s.trace ++ w ∧
        (∀ cs : List (List Byte), cs.flatten = w →
          ∃ u, core.run cs.length (t.setInputs (cs.map .processChunk)) = .next u ∧ u.asm = Assembler.reset ∧
            resultsOf u.trace = resultsOf t.trace ++ ps.map .ok) ∧
        ∀ p ∈ ps, extractFrame none (frameEncode (encodePacket p)) = some (encodePacket p) ∧
          decodeFrame (encodePacket p) = .ok p

/-! ### The machine -/

/-- 00_scope.md R6, 30_encoding.md R61 to R63: a step consumes the next input event and runs the operation it selects.
Three clauses are the model's choice: with no input nothing happens (70_reset_and_hazards.md R241; log entry 21); the
frames the operation returned have their results on `RESULT_OUT` at the end of the same step (44_pipeline_host.md R180
leaves when open; log entry 12); and an event that is no row is refused by name (log entry 18: no rule speaks of a
refusal, 42_packet_encode_commands.md R136, R148 and R149 say that no such packet or command can be presented). The clause
about an `exec` that refuses says how step wraps it; no arm of `exec` refuses, so no state meets its hypothesis. -/
def Obligations.StepRunsTheOperationTheEventSelects : Prop :=
  (∀ s : State, s.inputs = [] → step s = .next s) ∧
  ∀ (s : State) (e : Input) (rest : List Input), s.inputs = e :: rest →
    (∀ i : Instr, decodeInput s.asm.escaping e = .ok i →
      (∀ t, exec i { s with inputs := rest } = .next t →
        step s = .next { t with
          trace := t.trace ++ (match t.ret with
            | .frame (some f) => [Output.resultOut (decodeFrame f)]
            | .frames fs => fs.map fun f => Output.resultOut (decodeFrame f)
            | _ => []) }) ∧
      (∀ r, exec i { s with inputs := rest } = .fault r → step s = .fault r) ∧
      (∀ r, exec i { s with inputs := rest } = .refused r → step s = .refused r)) ∧
    (∀ r : Reject, decodeInput s.asm.escaping e = .error r →
      step s = .refused (match r with | .noPacketRow => .noPacketRow | .noCommandRow => .noCommandRow))

/-- 30_encoding.md R73: every well-formed operation, read back from the event that presents it in its own context, is
that operation, with every operand at every value. -/
def Obligations.EncodedOperationsDecodeBack : Prop :=
  ∀ (i : Instr) (escaping : Bool), i.wellFormed = true → (∀ c, i.context = some c → escaping = c) →
    decodeInput escaping (encodeInput i) = .ok i

/-- 30_encoding.md R73: each event has one meaning: what the decoder reads is a well-formed operation, in its own
context, whose event is the one read. -/
def Obligations.DecodedOperationsAreWellFormedAndEncodeBack : Prop :=
  ∀ (e : Input) (escaping : Bool) (i : Instr), decodeInput escaping e = .ok i →
    i.wellFormed = true ∧ (∀ c, i.context = some c → escaping = c) ∧ encodeInput i = e

/-- 30_encoding.md R55, R61 to R63, 95_test_vectors.md V-A3, V-A1, V-C36, V-D2, V-E10: words written out from the tables
decode to the operations they stand for. -/
def Obligations.SpelledOutWordsDecode : Prop :=
  decodeInput true (.rxByte 0b11011100#8) = .ok .rxUnescEnd ∧
  decodeInput false (.rxByte 0b11011100#8) = .ok (.rxData 0xDC#8) ∧
  decodeInput true (.rxByte 0b11000000#8) = .ok (.rxUnescLit 0xC0#8) ∧
  decodeInput false (.txByte 0b11011011#8) = .ok .txEscEsc ∧
  decodeInput false (.frame [0b00010110#8, 1#8]) = .ok (.decUnknown 0x16#8 [1#8]) ∧
  decodeInput false (.packet [1#8, 0xFF#8, 0xFF#8, 1#8, 0#8, 0x80#8, 0#8]) = .ok (.encAcc 0xFFFF#16 0x0100#16 0x8000#16) ∧
  decodeInput false (.command [0b00001101#8, 0b11000000#8]) = .ok (.cmdSetGpioDirection false false false false true true) ∧
  decodeInput false (.command [0b00001001#8, 0b01000000#8]) = .error .noCommandRow

/-- 10_state.md R12, R23 (e), 43_stream_assembler.md R170: every step from any state keeps the buffer within its
capacity and the delivered frames non-empty. -/
def Obligations.EveryStepKeepsTheBufferWithinCapacityAndFramesNonEmpty : Prop :=
  ∀ s t : State, s.wf → step s = .next t → t.wf

/-- 44_pipeline_host.md R182, 20_memory.md R43: every step from any state keeps the results on `RESULT_OUT` equal, one
for one and in order, to `decode` of the frames on `FRAME_OUT`, while no waiting event bypasses the assembler. -/
def Obligations.EveryStepKeepsResultsFollowingFramesOneForOne : Prop :=
  ∀ s t : State, s.pipelineInv → step s = .next t → t.pipelineInv

/-- The reset state meets both invariants (10_state.md R24), with any input events waiting that do not bypass the
assembler. -/
def Obligations.ResetMeetsTheInvariants : Prop :=
  State.reset.wf ∧ State.reset.pipelineInv ∧
    ∀ es : List Input, (∀ e ∈ es, e.bypassesAssembler = false) →
      (State.reset.setInputs es).wf ∧ (State.reset.setInputs es).pipelineInv

/-- 00_scope.md R3, the access table of 10_state.md R15, 10_state.md R21: the outbound rows, `encode` and `decode` neither read nor
write `S`: what they do is the same whatever `S` is. -/
def Obligations.OutboundAndDecodeOperationsIgnoreTheAssembler : Prop :=
  ∀ (i : Instr) (s t : State) (S : Assembler),
    ((tableRow i).format = .txb ∨ (tableRow i).format = .tag ∨ (tableRow i).format = .pkt ∨
      (∃ p, i = .frameEncode p) ∨ (∃ F, i = .decode F) ∨ ∃ p, i = .encode p) →
    exec i s = .next t →
      t.asm = s.asm ∧ t.inputs = s.inputs ∧ t.reads = s.reads ∧ t.writes = s.writes ∧
        exec i (s.setAsm S) = .next (t.setAsm S)

/-- 10_state.md R13, R15: an operation outside the RX family, FEED, the chunk operations and POLL leaves the flag as it
is or clears it with the whole assembler. -/
def Obligations.OnlyTheReceivePathSetsTheFlag : Prop :=
  ∀ (i : Instr) (s t : State), exec i s = .next t →
    ((tableRow i).format ≠ .rxb ∧ (∀ b, i ≠ .feed b) ∧ (∀ c, i ≠ .feedChunk c) ∧ (∀ c, i ≠ .processChunk c) ∧ i ≠ .poll) →
    t.asm = s.asm ∨ t.asm = Assembler.reset

/-- 10_state.md R20, the four output ports, each by the operations that may put an event on it: `TX_BYTE`
(20_memory.md R44) the TXB rows, the commands and TRANSMIT; `FRAME_OUT` the receive path; `RESULT_OUT` the TAG rows,
DECODE, PROCESS_CHUNK and POLL; `ERR_OUT` (60_exceptions.md R198) XPORT_ERR, POLL, TRANSMIT and the commands. It is about
`exec`: the results of the frames that RXB rows, FEED and FEED_CHUNK return are added by `step` (log entry 12), and which
port an internal operation drives is log entry 14. -/
def Obligations.EachPortIsDrivenByItsOwnOperations : Prop :=
  ∀ (i : Instr) (s t : State), exec i s = .next t →
    (txBytesOf t.trace ≠ txBytesOf s.trace →
      (tableRow i).format = .txb ∨ (tableRow i).format = .cmd ∨ ∃ p, i = .transmit p) ∧
    (framesOf t.trace ≠ framesOf s.trace →
      (tableRow i).format = .rxb ∨ (∃ b, i = .feed b) ∨ (∃ c, i = .feedChunk c) ∨ (∃ c, i = .processChunk c) ∨ i = .poll) ∧
    (resultsOf t.trace ≠ resultsOf s.trace →
      (tableRow i).format = .tag ∨ (∃ F, i = .decode F) ∨ (∃ c, i = .processChunk c) ∨ i = .poll) ∧
    (errorsOf t.trace ≠ errorsOf s.trace →
      (tableRow i).format = .cmd ∨ (∃ p, i = .transmit p) ∨ i = .poll ∨ i = .xportErr)

/-- 10_state.md R22 (e), R19: no operation depends on what was emitted or returned before; it only adds to the trace. -/
def Obligations.OperationsDoNotDependOnPastOutputs : Prop :=
  ∀ (i : Instr) (s t : State) (tr : List Output) (r : Ret), exec i s = .next t →
    ∃ out, t.trace = s.trace ++ out ∧ exec i { s with trace := tr, ret := r } = .next { t with trace := tr ++ out }

/-- 20_memory.md R42, 10_state.md R22 (d): a step consumes exactly the next input event, never writes a parameter, and
never takes back an output event. -/
def Obligations.EveryStepConsumesOneEventAndOnlyAddsOutputs : Prop :=
  ∀ s t : State, step s = .next t →
    t.inputs = s.inputs.tail ∧ t.par = s.par ∧ s.trace <+: t.trace

/-- 70_reset_and_hazards.md R241, 43_stream_assembler.md R161, 41_packet_decode.md R110 (a): under the default unbounded
`BUF_CAP` every operation completes in every state. -/
def Obligations.EveryOperationCompletesUnderTheDefaultCapacity : Prop :=
  ∀ (i : Instr) (s : State), s.par.bufCap = none → ∃ t, exec i s = .next t
end

