-- ==== Sys2Proof/Laws/Codec.lean ====
section
/-! SUPPORT. Field assembly and its inverse, the mask bytes, and the equations of the frame codec. -/

namespace Sys2Proof.Machine

@[simp] theorem be16_bytes (v : BitVec 16) : be16 (v.extractLsb' 8 8) (v.extractLsb' 0 8) = v := by
  apply BitVec.eq_of_toNat_eq
  have h := v.isLt
  simp only [be16, BitVec.toNat_ofNat, BitVec.extractLsb'_toNat, Nat.shiftRight_eq_div_pow]
  omega

@[simp] theorem be32_bytes (v : BitVec 32) :
    be32 (v.extractLsb' 24 8) (v.extractLsb' 16 8) (v.extractLsb' 8 8) (v.extractLsb' 0 8) = v := by
  apply BitVec.eq_of_toNat_eq
  have h := v.isLt
  simp only [be32, BitVec.toNat_ofNat, BitVec.extractLsb'_toNat, Nat.shiftRight_eq_div_pow]
  generalize v.toNat = n at *
  omega

theorem be16_toNat (b0 b1 : Byte) : (be16 b0 b1).toNat = b0.toNat * 2 ^ 8 + b1.toNat := by
  have h0 := b0.isLt
  have h1 := b1.isLt
  rw [be16, BitVec.toNat_ofNat, Nat.mod_eq_of_lt (by omega)]

theorem be32_toNat (b0 b1 b2 b3 : Byte) :
    (be32 b0 b1 b2 b3).toNat = b0.toNat * 2 ^ 24 + b1.toNat * 2 ^ 16 + b2.toNat * 2 ^ 8 + b3.toNat := by
  have h0 := b0.isLt
  have h1 := b1.isLt
  have h2 := b2.isLt
  have h3 := b3.isLt
  rw [be32, BitVec.toNat_ofNat, Nat.mod_eq_of_lt (by omega)]

@[simp] theorem bytes_be16 (b0 b1 : Byte) : bytesBE16 (be16 b0 b1) = [b0, b1] := by
  have h0 := b0.isLt
  have h1 := b1.isLt
  simp only [bytesBE16, List.cons.injEq, and_true]
  constructor <;>
    · apply BitVec.eq_of_toNat_eq
      rw [BitVec.extractLsb'_toNat, be16_toNat, Nat.shiftRight_eq_div_pow]
      omega

@[simp] theorem bytes_be32 (b0 b1 b2 b3 : Byte) : bytesBE32 (be32 b0 b1 b2 b3) = [b0, b1, b2, b3] := by
  have h0 := b0.isLt
  have h1 := b1.isLt
  have h2 := b2.isLt
  have h3 := b3.isLt
  simp only [bytesBE32, List.cons.injEq, and_true]
  refine ⟨?_, ?_, ?_, ?_⟩ <;>
    · apply BitVec.eq_of_toNat_eq
      rw [BitVec.extractLsb'_toNat, be32_toNat, Nat.shiftRight_eq_div_pow]
      generalize b0.toNat = x0 at *
      generalize b1.toNat = x1 at *
      generalize b2.toNat = x2 at *
      generalize b3.toNat = x3 at *
      omega

@[simp] theorem bytesBE16_length (v : BitVec 16) : (bytesBE16 v).length = 2 := rfl

@[simp] theorem bytesBE32_length (v : BitVec 32) : (bytesBE32 v).length = 4 := rfl

/-- The bits of the streaming-selector mask (30_encoding.md R59). -/
theorem streamMask_bits (q a y m t g : Bool) :
    streamMask q a y m t g &&& 0xC0#8 = 0#8 ∧ (streamMask q a y m t g).getLsbD 0 = q ∧
      (streamMask q a y m t g).getLsbD 1 = a ∧ (streamMask q a y m t g).getLsbD 2 = y ∧
      (streamMask q a y m t g).getLsbD 3 = m ∧ (streamMask q a y m t g).getLsbD 4 = t ∧
      (streamMask q a y m t g).getLsbD 5 = g := by
  revert q a y m t g; decide

/-- The bits of the GPIO mask (30_encoding.md R60). -/
theorem gpioMask_bits (f0 f1 f4 f5 f6 f7 : Bool) :
    gpioMask f0 f1 f4 f5 f6 f7 &&& 0x0C#8 = 0#8 ∧ (gpioMask f0 f1 f4 f5 f6 f7).getLsbD 0 = f0 ∧
      (gpioMask f0 f1 f4 f5 f6 f7).getLsbD 1 = f1 ∧ (gpioMask f0 f1 f4 f5 f6 f7).getLsbD 4 = f4 ∧
      (gpioMask f0 f1 f4 f5 f6 f7).getLsbD 5 = f5 ∧ (gpioMask f0 f1 f4 f5 f6 f7).getLsbD 6 = f6 ∧
      (gpioMask f0 f1 f4 f5 f6 f7).getLsbD 7 = f7 := by
  revert f0 f1 f4 f5 f6 f7; decide

@[simp] theorem esc_frameEnd : esc frameEnd = [escape, escapedEnd] := rfl

@[simp] theorem esc_escape : esc escape = [escape, escapedEscape] := rfl

theorem esc_other {b : Byte} (h1 : b ≠ frameEnd) (h2 : b ≠ escape) : esc b = [b] := by simp [esc, h1, h2]

@[simp] theorem frameEncode_nil : frameEncode [] = [frameEnd] := rfl

@[simp] theorem frameEncode_cons (b : Byte) (p : List Byte) : frameEncode (b :: p) = esc b ++ frameEncode p := by
  simp [frameEncode]

end Sys2Proof.Machine
end

