-- ==== Sys2Proof/Laws/Assembler.lean ====
section
/-! SUPPORT. What one byte and one chunk can do to the assembler, and that the buffer keeps its form. -/

namespace Sys2Proof.Machine

@[simp] theorem hasRoom_none (buf : Frame) : hasRoom none buf = true := rfl

@[simp] theorem hasRoom_some (n : Nat) (buf : Frame) : hasRoom (some n) buf = decide (buf.length < n) := rfl

/-- Everything an append can answer. -/
theorem asmAppend_some {cap : Option Nat} {S S' : Assembler} {v : Byte} (h : asmAppend cap S v = some S') :
    hasRoom cap S.buf = true ∧ S' = { S with buf := S.buf ++ [v] } := by
  unfold asmAppend at h
  split at h
  · exact ⟨‹_›, by simpa using h.symm⟩
  · cases h

/-- Everything one received byte can do where it does not overflow (43_stream_assembler.md R171). -/
theorem feed_cases {cap : Option Nat} {S S' : Assembler} {b : Byte} {r : Option Frame}
    (h : feed cap S b = some (S', r)) :
    (S.escaping = true ∧ hasRoom cap S.buf = true ∧ S' = { buf := S.buf ++ [unesc b], escaping := false } ∧ r = none) ∨
    (S.escaping = false ∧ b = escape ∧ S' = { S with escaping := true } ∧ r = none) ∨
    (S.escaping = false ∧ b = frameEnd ∧ S.buf ≠ [] ∧ S' = { buf := [], escaping := false } ∧ r = some S.buf) ∨
    (S.escaping = false ∧ b = frameEnd ∧ S.buf = [] ∧ S' = S ∧ r = none) ∨
    (S.escaping = false ∧ b ≠ escape ∧ b ≠ frameEnd ∧ hasRoom cap S.buf = true ∧
      S' = { S with buf := S.buf ++ [b] } ∧ r = none) := by
  have unescape : ∀ v, asmUnescape cap S v = some (S', r) →
      hasRoom cap S.buf = true ∧ S' = { buf := S.buf ++ [v], escaping := false } ∧ r = none := by
    intro v hv
    unfold asmUnescape at hv
    split at hv
    · obtain ⟨h1, rfl⟩ := asmAppend_some ‹_›
      simp only [Option.some.injEq, Prod.mk.injEq] at hv
      exact ⟨h1, hv.1.symm, hv.2.symm⟩
    · cases hv
  unfold feed at h
  by_cases he : S.escaping = true
  · refine .inl ⟨he, ?_⟩
    simp only [he, if_true] at h
    by_cases h1 : b = escapedEnd
    · subst h1; exact unescape _ h
    · by_cases h2 : b = escapedEscape
      · subst h2; exact unescape _ h
      · simp only [h1, h2, if_false] at h
        simpa [unesc, h1, h2] using unescape _ h
  · have hf : S.escaping = false := by simpa using he
    simp only [hf, Bool.false_eq_true, if_false] at h
    by_cases h1 : b = escape
    · subst h1
      simp only [if_true, asmEsc, Option.some.injEq, Prod.mk.injEq] at h
      exact .inr (.inl ⟨hf, rfl, h.1.symm, h.2.symm⟩)
    · by_cases h2 : b = frameEnd
      · subst h2
        simp only [h1, if_false, if_true, asmEnd] at h
        split at h
        · simp only [Option.some.injEq, Prod.mk.injEq] at h
          exact .inr (.inr (.inr (.inl ⟨hf, rfl, ‹_›, h.1.symm, h.2.symm⟩)))
        · rename_i x xs hx
          simp only [Option.some.injEq, Prod.mk.injEq] at h
          exact .inr (.inr (.inl ⟨hf, rfl, by simp [hx], h.1.symm, by rw [hx]; exact h.2.symm⟩))
      · simp only [h1, h2, if_false, asmData] at h
        split at h
        · obtain ⟨h3, rfl⟩ := asmAppend_some ‹_›
          simp only [Option.some.injEq, Prod.mk.injEq] at h
          exact .inr (.inr (.inr (.inr ⟨hf, h1, h2, h3, h.1.symm, h.2.symm⟩)))
        · cases h

@[simp] theorem feedChunk_nil (cap : Option Nat) (S : Assembler) : feedChunk cap S [] = some (S, []) := rfl

/-- One byte, then the rest. -/
theorem feedChunk_cons {cap : Option Nat} {S S1 S2 : Assembler} {b : Byte} {c : List Byte} {r : Option Frame}
    {fs : List Frame} (h1 : feed cap S b = some (S1, r)) (h2 : feedChunk cap S1 c = some (S2, fs)) :
    feedChunk cap S (b :: c) = some (S2, r.toList ++ fs) := by
  simp [feedChunk, h1, h2]

/-- Everything a chunk of one byte and a rest can do. -/
theorem feedChunk_cons_some {cap : Option Nat} {S S2 : Assembler} {b : Byte} {c : List Byte} {gs : List Frame}
    (h : feedChunk cap S (b :: c) = some (S2, gs)) :
    ∃ S1 r fs, feed cap S b = some (S1, r) ∧ feedChunk cap S1 c = some (S2, fs) ∧ gs = r.toList ++ fs := by
  unfold feedChunk at h
  split at h
  · cases h
  · rename_i S1 r hf
    split at h
    · cases h
    · rename_i S3 fs hc
      simp only [Option.some.injEq, Prod.mk.injEq] at h
      obtain ⟨rfl, rfl⟩ := h
      exact ⟨S1, r, fs, hf, hc, rfl⟩

end Sys2Proof.Machine
end

