-- ==== Sys2Proof/Laws/State.lean ====
section
/-! SUPPORT. One lemma per field per update of the state, and the port readings of a trace that grows. -/

namespace Sys2Proof.Machine

@[simp] theorem State.setAsm_asm (s : State) (S : Assembler) : (s.setAsm S).asm = S := rfl
@[simp] theorem State.setAsm_inputs (s : State) (S : Assembler) : (s.setAsm S).inputs = s.inputs := rfl
@[simp] theorem State.setAsm_reads (s : State) (S : Assembler) : (s.setAsm S).reads = s.reads := rfl
@[simp] theorem State.setAsm_writes (s : State) (S : Assembler) : (s.setAsm S).writes = s.writes := rfl
@[simp] theorem State.setAsm_trace (s : State) (S : Assembler) : (s.setAsm S).trace = s.trace := rfl
@[simp] theorem State.setAsm_ret (s : State) (S : Assembler) : (s.setAsm S).ret = s.ret := rfl
@[simp] theorem State.setAsm_par (s : State) (S : Assembler) : (s.setAsm S).par = s.par := rfl

@[simp] theorem State.setInputs_asm (s : State) (es : List Input) : (s.setInputs es).asm = s.asm := rfl
@[simp] theorem State.setInputs_inputs (s : State) (es : List Input) : (s.setInputs es).inputs = es := rfl
@[simp] theorem State.setInputs_reads (s : State) (es : List Input) : (s.setInputs es).reads = s.reads := rfl
@[simp] theorem State.setInputs_writes (s : State) (es : List Input) : (s.setInputs es).writes = s.writes := rfl
@[simp] theorem State.setInputs_trace (s : State) (es : List Input) : (s.setInputs es).trace = s.trace := rfl
@[simp] theorem State.setInputs_ret (s : State) (es : List Input) : (s.setInputs es).ret = s.ret := rfl
@[simp] theorem State.setInputs_par (s : State) (es : List Input) : (s.setInputs es).par = s.par := rfl

@[simp] theorem State.setReads_asm (s : State) (rs : List ReadReply) : (s.setReads rs).asm = s.asm := rfl
@[simp] theorem State.setReads_inputs (s : State) (rs : List ReadReply) : (s.setReads rs).inputs = s.inputs := rfl
@[simp] theorem State.setReads_reads (s : State) (rs : List ReadReply) : (s.setReads rs).reads = rs := rfl
@[simp] theorem State.setReads_writes (s : State) (rs : List ReadReply) : (s.setReads rs).writes = s.writes := rfl
@[simp] theorem State.setReads_trace (s : State) (rs : List ReadReply) : (s.setReads rs).trace = s.trace := rfl
@[simp] theorem State.setReads_ret (s : State) (rs : List ReadReply) : (s.setReads rs).ret = s.ret := rfl
@[simp] theorem State.setReads_par (s : State) (rs : List ReadReply) : (s.setReads rs).par = s.par := rfl

@[simp] theorem State.setWrites_asm (s : State) (ws : List WriteReply) : (s.setWrites ws).asm = s.asm := rfl
@[simp] theorem State.setWrites_inputs (s : State) (ws : List WriteReply) : (s.setWrites ws).inputs = s.inputs := rfl
@[simp] theorem State.setWrites_reads (s : State) (ws : List WriteReply) : (s.setWrites ws).reads = s.reads := rfl
@[simp] theorem State.setWrites_writes (s : State) (ws : List WriteReply) : (s.setWrites ws).writes = ws := rfl
@[simp] theorem State.setWrites_trace (s : State) (ws : List WriteReply) : (s.setWrites ws).trace = s.trace := rfl
@[simp] theorem State.setWrites_ret (s : State) (ws : List WriteReply) : (s.setWrites ws).ret = s.ret := rfl
@[simp] theorem State.setWrites_par (s : State) (ws : List WriteReply) : (s.setWrites ws).par = s.par := rfl

@[simp] theorem State.setRet_asm (s : State) (r : Ret) : (s.setRet r).asm = s.asm := rfl
@[simp] theorem State.setRet_inputs (s : State) (r : Ret) : (s.setRet r).inputs = s.inputs := rfl
@[simp] theorem State.setRet_reads (s : State) (r : Ret) : (s.setRet r).reads = s.reads := rfl
@[simp] theorem State.setRet_writes (s : State) (r : Ret) : (s.setRet r).writes = s.writes := rfl
@[simp] theorem State.setRet_trace (s : State) (r : Ret) : (s.setRet r).trace = s.trace := rfl
@[simp] theorem State.setRet_ret (s : State) (r : Ret) : (s.setRet r).ret = r := rfl
@[simp] theorem State.setRet_par (s : State) (r : Ret) : (s.setRet r).par = s.par := rfl

@[simp] theorem State.emit_asm (s : State) (out : List Output) : (s.emit out).asm = s.asm := rfl
@[simp] theorem State.emit_inputs (s : State) (out : List Output) : (s.emit out).inputs = s.inputs := rfl
@[simp] theorem State.emit_reads (s : State) (out : List Output) : (s.emit out).reads = s.reads := rfl
@[simp] theorem State.emit_writes (s : State) (out : List Output) : (s.emit out).writes = s.writes := rfl
@[simp] theorem State.emit_trace (s : State) (out : List Output) : (s.emit out).trace = s.trace ++ out := rfl
@[simp] theorem State.emit_ret (s : State) (out : List Output) : (s.emit out).ret = s.ret := rfl
@[simp] theorem State.emit_par (s : State) (out : List Output) : (s.emit out).par = s.par := rfl

@[simp] theorem framesOf_nil : framesOf [] = [] := rfl

@[simp] theorem framesOf_append (t u : List Output) : framesOf (t ++ u) = framesOf t ++ framesOf u := by
  simp [framesOf]

@[simp] theorem framesOf_frameOut (x : Frame) (t : List Output) : framesOf (.frameOut x :: t) = x :: framesOf t := rfl

@[simp] theorem framesOf_resultOut (x : Result) (t : List Output) : framesOf (.resultOut x :: t) = framesOf t := rfl

@[simp] theorem framesOf_txByte (x : Byte) (t : List Output) : framesOf (.txByte x :: t) = framesOf t := rfl

@[simp] theorem framesOf_errOut (x : ErrorKind) (t : List Output) : framesOf (.errOut x :: t) = framesOf t := rfl

@[simp] theorem resultsOf_nil : resultsOf [] = [] := rfl

@[simp] theorem resultsOf_append (t u : List Output) : resultsOf (t ++ u) = resultsOf t ++ resultsOf u := by
  simp [resultsOf]

@[simp] theorem resultsOf_frameOut (x : Frame) (t : List Output) : resultsOf (.frameOut x :: t) = resultsOf t := rfl

@[simp] theorem resultsOf_resultOut (x : Result) (t : List Output) : resultsOf (.resultOut x :: t) = x :: resultsOf t := rfl

@[simp] theorem resultsOf_txByte (x : Byte) (t : List Output) : resultsOf (.txByte x :: t) = resultsOf t := rfl

@[simp] theorem resultsOf_errOut (x : ErrorKind) (t : List Output) : resultsOf (.errOut x :: t) = resultsOf t := rfl

@[simp] theorem txBytesOf_nil : txBytesOf [] = [] := rfl

@[simp] theorem txBytesOf_append (t u : List Output) : txBytesOf (t ++ u) = txBytesOf t ++ txBytesOf u := by
  simp [txBytesOf]

@[simp] theorem txBytesOf_frameOut (x : Frame) (t : List Output) : txBytesOf (.frameOut x :: t) = txBytesOf t := rfl

@[simp] theorem txBytesOf_resultOut (x : Result) (t : List Output) : txBytesOf (.resultOut x :: t) = txBytesOf t := rfl

@[simp] theorem txBytesOf_txByte (x : Byte) (t : List Output) : txBytesOf (.txByte x :: t) = x :: txBytesOf t := rfl

@[simp] theorem txBytesOf_errOut (x : ErrorKind) (t : List Output) : txBytesOf (.errOut x :: t) = txBytesOf t := rfl

@[simp] theorem errorsOf_nil : errorsOf [] = [] := rfl

@[simp] theorem errorsOf_append (t u : List Output) : errorsOf (t ++ u) = errorsOf t ++ errorsOf u := by
  simp [errorsOf]

@[simp] theorem errorsOf_frameOut (x : Frame) (t : List Output) : errorsOf (.frameOut x :: t) = errorsOf t := rfl

@[simp] theorem errorsOf_resultOut (x : Result) (t : List Output) : errorsOf (.resultOut x :: t) = errorsOf t := rfl

@[simp] theorem errorsOf_txByte (x : Byte) (t : List Output) : errorsOf (.txByte x :: t) = errorsOf t := rfl

@[simp] theorem errorsOf_errOut (x : ErrorKind) (t : List Output) : errorsOf (.errOut x :: t) = x :: errorsOf t := rfl

end Sys2Proof.Machine
end

