-- ==== Sys2Proof/Laws/Ops.lean ====
section
/-! SUPPORT. For each shared operation, everything it can answer; and that every operation on the buffer keeps its
form. -/

namespace Sys2Proof.Machine

/-! ### Inbound operations -/

theorem applyFeed_next {r : Option (Assembler × Option Frame)} {s t : State} (h : applyFeed r s = .next t) :
    ∃ S f, r = some (S, f) ∧
      t = { s with asm := S, trace := s.trace ++ f.toList.map .frameOut, ret := .frame f } := by
  cases r with
  | none => cases h
  | some x => exact ⟨x.1, x.2, rfl, by cases h; rfl⟩

theorem applyFeedChunk_next {c : List Byte} {s t : State} (h : applyFeedChunk c s = .next t) :
    ∃ S fs, feedChunk s.par.bufCap s.asm c = some (S, fs) ∧
      t = { s with asm := S, trace := s.trace ++ fs.map .frameOut, ret := .frames fs } := by
  unfold applyFeedChunk at h
  split at h
  · cases h
  · exact ⟨_, _, ‹_›, by cases h; rfl⟩

theorem processChunk_next {c : List Byte} {s t : State} (h : processChunk c s = .next t) :
    ∃ S fs, feedChunk s.par.bufCap s.asm c = some (S, fs) ∧
      t = { s with asm := S,
                   trace := s.trace ++ fs.flatMap fun f => [.frameOut f, .resultOut (decodeFrame f)],
                   ret := .results (fs.map decodeFrame) } := by
  unfold processChunk at h
  split at h
  · cases h
  · exact ⟨_, _, ‹_›, by cases h; rfl⟩

theorem discardAsm_eq (s : State) :
    discardAsm s = { s with asm := { buf := [], escaping := false }, ret := .nothing } := rfl

theorem takeTransportError_eq (s : State) :
    takeTransportError s = { s with asm := { buf := [], escaping := false },
                                    trace := s.trace ++ [.errOut .transportError], ret := .nothing } := rfl

theorem emitResult_eq (r : Result) (s : State) :
    emitResult r s = { s with trace := s.trace ++ [.resultOut r], ret := .result r } := rfl

/-- A POLL either processes the chunk it read or takes the TransportError of its read. -/
theorem pollOnce_next {s t : State} (h : pollOnce s = .next t) :
    (∃ c rest, readOnce s.par.readMax s.reads = (.bytes c, rest) ∧ processChunk c (s.setReads rest) = .next t) ∨
    ∃ rest, readOnce s.par.readMax s.reads = (.failed, rest) ∧ t = takeTransportError (s.setReads rest) := by
  unfold pollOnce at h
  split at h
  · exact .inl ⟨_, _, ‹_›, h⟩
  · exact .inr ⟨_, ‹_›, by cases h; rfl⟩

/-- What PacketCodec adds for the frames the operation returned (44_pipeline_host.md R180). -/
theorem deliver_cases (s : State) :
    (∃ f, s.ret = .frame (some f) ∧ deliver s = s.emit [.resultOut (decodeFrame f)]) ∨
    (∃ fs, s.ret = .frames fs ∧ deliver s = s.emit (fs.map fun f => .resultOut (decodeFrame f))) ∨
    ((∀ f, s.ret ≠ .frame (some f)) ∧ (∀ fs, s.ret ≠ .frames fs) ∧ deliver s = s) := by
  unfold deliver
  split
  · exact .inl ⟨_, ‹_›, rfl⟩
  · exact .inr (.inl ⟨_, ‹_›, rfl⟩)
  · rename_i h1 h2
    exact .inr (.inr ⟨h1, h2, rfl⟩)

/-! ### Outbound operations -/

theorem emitTx_eq (bs : List Byte) (s : State) :
    emitTx bs s = { s with trace := s.trace ++ bs.map .txByte, ret := .nothing } := rfl

theorem returnBytes_eq (bs : List Byte) (s : State) : returnBytes bs s = { s with ret := .bytes bs } := rfl

/-- A transmit either hands over the whole wire form or takes the TransportError of its write. -/
theorem transmitPacket_cases (p : Packet) (s : State) :
    (s.writes.head? ≠ some .failed ∧
      transmitPacket p s = { s with writes := s.writes.tail,
                                    trace := s.trace ++ (frameEncode (encodePacket p)).map .txByte, ret := .nothing }) ∨
    ∃ ws, s.writes = .failed :: ws ∧ transmitPacket p s = takeTransportError (s.setWrites ws) := by
  obtain ⟨asm, inputs, reads, writes, trace, ret, par⟩ := s
  match writes with
  | [] => exact .inl ⟨by simp, rfl⟩
  | .accepted :: ws => exact .inl ⟨by simp, rfl⟩
  | .failed :: ws => exact .inr ⟨ws, rfl, rfl⟩

/-! ### The form of the buffer -/

theorem asmAppend_wf {cap : Option Nat} {S S' : Assembler} {v : Byte} (h : asmAppend cap S v = some S') :
    Memory.wf cap S'.buf = true := by
  obtain ⟨h1, rfl⟩ := asmAppend_some h
  cases cap with
  | none => rfl
  | some n => simpa [Memory.wf] using h1

theorem asmReset_wf (cap : Option Nat) (S : Assembler) : Memory.wf cap (asmReset S).buf = true := by
  cases cap <;> simp [Memory.wf, asmReset]

theorem hasRoom_wf {cap : Option Nat} {buf : Frame} {v : Byte} (h : hasRoom cap buf = true) :
    Memory.wf cap (buf ++ [v]) = true := by
  cases cap with
  | none => rfl
  | some n => simpa [Memory.wf] using h

/-- One received byte keeps the buffer within its capacity and delivers no empty frame (43_stream_assembler.md R170). -/
theorem feed_wf {cap : Option Nat} {S S' : Assembler} {b : Byte} {r : Option Frame} (hS : Memory.wf cap S.buf = true)
    (h : feed cap S b = some (S', r)) : Memory.wf cap S'.buf = true ∧ ∀ f ∈ r, f ≠ [] := by
  obtain ⟨_, h1, rfl, rfl⟩ | ⟨_, _, rfl, rfl⟩ | ⟨_, _, h1, rfl, rfl⟩ | ⟨_, _, _, rfl, rfl⟩ | ⟨_, _, _, h1, rfl, rfl⟩ :=
    feed_cases h
  · exact ⟨hasRoom_wf h1, by simp⟩
  · exact ⟨hS, by simp⟩
  · exact ⟨asmReset_wf cap S, by simpa using h1⟩
  · exact ⟨hS, by simp⟩
  · exact ⟨hasRoom_wf h1, by simp⟩

theorem feedChunk_wf {cap : Option Nat} {S S' : Assembler} {c : List Byte} {fs : List Frame}
    (hS : Memory.wf cap S.buf = true) (h : feedChunk cap S c = some (S', fs)) :
    Memory.wf cap S'.buf = true ∧ ∀ f ∈ fs, f ≠ [] := by
  induction c generalizing S fs with
  | nil => cases h; exact ⟨hS, by simp⟩
  | cons b c ih =>
    obtain ⟨S1, r, gs, h1, h2, rfl⟩ := feedChunk_cons_some h
    obtain ⟨h3, h4⟩ := feed_wf hS h1
    obtain ⟨h5, h6⟩ := ih h3 h2
    refine ⟨h5, fun f hf => ?_⟩
    obtain hf | hf := List.mem_append.mp hf
    · exact h4 f (Option.mem_toList.mp hf)
    · exact h6 f hf

theorem reset_buf_wf : Memory.wf State.reset.par.bufCap State.reset.asm.buf = true := rfl

/-- Without a capacity one byte always completes (43_stream_assembler.md R161). -/
theorem feed_none (S : Assembler) (b : Byte) : ∃ S' r, feed none S b = some (S', r) := by
  simp only [feed, asmUnescEnd, asmUnescEsc, asmUnescLit, asmUnescape, asmEsc, asmEnd, asmData, asmAppend, hasRoom_none,
    if_true]
  repeat' split
  all_goals exact ⟨_, _, rfl⟩

theorem feedChunk_none (S : Assembler) (c : List Byte) : ∃ S' fs, feedChunk none S c = some (S', fs) := by
  induction c generalizing S with
  | nil => exact ⟨_, _, rfl⟩
  | cons b c ih =>
    obtain ⟨S1, r, h1⟩ := feed_none S b
    obtain ⟨S2, fs, h2⟩ := ih S1
    exact ⟨_, _, feedChunk_cons h1 h2⟩

/-! ### The ports, and runs -/

@[simp] theorem framesOf_map_frameOut (fs : List Frame) : framesOf (fs.map .frameOut) = fs := by
  induction fs with
  | nil => rfl
  | cons f fs ih => simp [ih]

@[simp] theorem resultsOf_map_frameOut (fs : List Frame) : resultsOf (fs.map .frameOut) = [] := by
  induction fs with
  | nil => rfl
  | cons f fs ih => simp [ih]

@[simp] theorem txBytesOf_map_frameOut (fs : List Frame) : txBytesOf (fs.map .frameOut) = [] := by
  induction fs with
  | nil => rfl
  | cons f fs ih => simp [ih]

@[simp] theorem errorsOf_map_frameOut (fs : List Frame) : errorsOf (fs.map .frameOut) = [] := by
  induction fs with
  | nil => rfl
  | cons f fs ih => simp [ih]

@[simp] theorem framesOf_map_txByte (bs : List Byte) : framesOf (bs.map .txByte) = [] := by
  induction bs with
  | nil => rfl
  | cons b bs ih => simp [ih]

@[simp] theorem resultsOf_map_txByte (bs : List Byte) : resultsOf (bs.map .txByte) = [] := by
  induction bs with
  | nil => rfl
  | cons b bs ih => simp [ih]

@[simp] theorem txBytesOf_map_txByte (bs : List Byte) : txBytesOf (bs.map .txByte) = bs := by
  induction bs with
  | nil => rfl
  | cons b bs ih => simp [ih]

@[simp] theorem errorsOf_map_txByte (bs : List Byte) : errorsOf (bs.map .txByte) = [] := by
  induction bs with
  | nil => rfl
  | cons b bs ih => simp [ih]

@[simp] theorem framesOf_map_resultOut {α : Type} (fs : List α) (g : α → Result) :
    framesOf (fs.map fun f => .resultOut (g f)) = [] := by
  induction fs with
  | nil => rfl
  | cons f fs ih => simp [ih]

@[simp] theorem resultsOf_map_resultOut {α : Type} (fs : List α) (g : α → Result) :
    resultsOf (fs.map fun f => .resultOut (g f)) = fs.map g := by
  induction fs with
  | nil => rfl
  | cons f fs ih => simp [ih]

/-- What the interleaved outputs of `process_chunk` carry on each port. -/
theorem processOutputs_ports (fs : List Frame) :
    framesOf (fs.flatMap fun f => [.frameOut f, .resultOut (decodeFrame f)]) = fs ∧
    resultsOf (fs.flatMap fun f => [.frameOut f, .resultOut (decodeFrame f)]) = fs.map decodeFrame ∧
    txBytesOf (fs.flatMap fun f => [.frameOut f, .resultOut (decodeFrame f)]) = [] ∧
    errorsOf (fs.flatMap fun f => [.frameOut f, .resultOut (decodeFrame f)]) = [] := by
  induction fs with
  | nil => exact ⟨rfl, rfl, rfl, rfl⟩
  | cons f fs ih => simp [ih]

theorem run_succ {k : Nat} {s t : State} (h : step s = .next t) : core.run (k + 1) s = core.run k t := by
  have h' : core.step s = .next t := h
  simp only [Host.Core.run, h']

end Sys2Proof.Machine
end

