-- ==== Sys2Proof/Laws/PerInstr.lean ====
section
/-! SUPPORT. Per operation: its encoding is selected by its own row of opcode_table.json. -/

namespace Sys2Proof.Laws.RowOfTable

/-- The input event an operation is encoded as has the row's format, its selecting byte matches the row's `match` and
`mask`, and the row's `context` is the operation's (30_encoding.md R73). -/
def Statement (i : Instr) : Prop :=
  inputFormat (encodeInput i) = (tableRow i).format ∧
    rowSelects (tableRow i) (selectingByte (encodeInput i)) = true ∧ i.context = (tableRow i).context

theorem rxUnescEnd : Statement (.rxUnescEnd) := ⟨rfl, rfl, rfl⟩

theorem rxUnescEsc : Statement (.rxUnescEsc) := ⟨rfl, rfl, rfl⟩

theorem rxUnescLit (b : Byte) : Statement (.rxUnescLit b) := by
  simp [Statement, rowSelects, tableRow, selectingByte, encodeInput, inputFormat, Instr.context]

theorem rxEsc : Statement (.rxEsc) := ⟨rfl, rfl, rfl⟩

theorem rxEnd : Statement (.rxEnd) := ⟨rfl, rfl, rfl⟩

theorem rxData (b : Byte) : Statement (.rxData b) := by
  simp [Statement, rowSelects, tableRow, selectingByte, encodeInput, inputFormat, Instr.context]

theorem txEscEnd : Statement (.txEscEnd) := ⟨rfl, rfl, rfl⟩

theorem txEscEsc : Statement (.txEscEsc) := ⟨rfl, rfl, rfl⟩

theorem txLit (b : Byte) : Statement (.txLit b) := by
  simp [Statement, rowSelects, tableRow, selectingByte, encodeInput, inputFormat, Instr.context]

theorem txTerm : Statement (.txTerm) := ⟨rfl, rfl, rfl⟩

theorem decQuat (payload : List Byte) : Statement (.decQuat payload) := ⟨rfl, rfl, rfl⟩

theorem decAcc (payload : List Byte) : Statement (.decAcc payload) := ⟨rfl, rfl, rfl⟩

theorem decGyro (payload : List Byte) : Statement (.decGyro payload) := ⟨rfl, rfl, rfl⟩

theorem decMag (payload : List Byte) : Statement (.decMag payload) := ⟨rfl, rfl, rfl⟩

theorem decTemperature (payload : List Byte) : Statement (.decTemperature payload) := ⟨rfl, rfl, rfl⟩

theorem decGpio (payload : List Byte) : Statement (.decGpio payload) := ⟨rfl, rfl, rfl⟩

theorem decColor (payload : List Byte) : Statement (.decColor payload) := ⟨rfl, rfl, rfl⟩

theorem decBlink (payload : List Byte) : Statement (.decBlink payload) := ⟨rfl, rfl, rfl⟩

theorem decIr (payload : List Byte) : Statement (.decIr payload) := ⟨rfl, rfl, rfl⟩

theorem decStream (payload : List Byte) : Statement (.decStream payload) := ⟨rfl, rfl, rfl⟩

theorem decVersion (payload : List Byte) : Statement (.decVersion payload) := ⟨rfl, rfl, rfl⟩

theorem decId (payload : List Byte) : Statement (.decId payload) := ⟨rfl, rfl, rfl⟩

theorem decCal (payload : List Byte) : Statement (.decCal payload) := ⟨rfl, rfl, rfl⟩

theorem decGpioDdr (payload : List Byte) : Statement (.decGpioDdr payload) := ⟨rfl, rfl, rfl⟩

theorem decGpioPort (payload : List Byte) : Statement (.decGpioPort payload) := ⟨rfl, rfl, rfl⟩

theorem decPower (payload : List Byte) : Statement (.decPower payload) := ⟨rfl, rfl, rfl⟩

theorem decUnknown (tag : Byte) (payload : List Byte) : Statement (.decUnknown tag payload) := by
  simp [Statement, rowSelects, tableRow, selectingByte, encodeInput, inputFormat, Instr.context]

theorem decEmpty : Statement (.decEmpty) := ⟨rfl, rfl, rfl⟩

theorem encQuat (q0 q1 q2 q3 : F32) : Statement (.encQuat q0 q1 q2 q3) := ⟨rfl, rfl, rfl⟩

theorem encAcc (v0 v1 v2 : S16) : Statement (.encAcc v0 v1 v2) := ⟨rfl, rfl, rfl⟩

theorem encGyro (v0 v1 v2 : S16) : Statement (.encGyro v0 v1 v2) := ⟨rfl, rfl, rfl⟩

theorem encMag (v0 v1 v2 : S16) : Statement (.encMag v0 v1 v2) := ⟨rfl, rfl, rfl⟩

theorem encGpio (v : Byte) : Statement (.encGpio v) := ⟨rfl, rfl, rfl⟩

theorem encColor (r g b : Byte) : Statement (.encColor r g b) := ⟨rfl, rfl, rfl⟩

theorem encBlink (b0 b1 b2 : Byte) : Statement (.encBlink b0 b1 b2) := ⟨rfl, rfl, rfl⟩

theorem encIr (v : Byte) : Statement (.encIr v) := ⟨rfl, rfl, rfl⟩

theorem encStream (mask : Byte) : Statement (.encStream mask) := ⟨rfl, rfl, rfl⟩

theorem encVersion (v : U32) : Statement (.encVersion v) := ⟨rfl, rfl, rfl⟩

theorem encId (v : U32) : Statement (.encId v) := ⟨rfl, rfl, rfl⟩

theorem encCal (ox oy oz sx sy sz : F32) : Statement (.encCal ox oy oz sx sy sz) := ⟨rfl, rfl, rfl⟩

theorem encGpioDdr (mask : Byte) : Statement (.encGpioDdr mask) := ⟨rfl, rfl, rfl⟩

theorem encGpioPort (mask : Byte) : Statement (.encGpioPort mask) := ⟨rfl, rfl, rfl⟩

theorem encPower (level : Byte) : Statement (.encPower level) := ⟨rfl, rfl, rfl⟩

theorem cmdSetColor (r g b : Byte) : Statement (.cmdSetColor r g b) := ⟨rfl, rfl, rfl⟩

theorem cmdSetStreamingMode (quat acc gyro mag temperature gpio : Bool) : Statement (.cmdSetStreamingMode quat acc gyro mag temperature gpio) := ⟨rfl, rfl, rfl⟩

theorem cmdSetCalibration (ox oy oz sx sy sz : F32) : Statement (.cmdSetCalibration ox oy oz sx sy sz) := ⟨rfl, rfl, rfl⟩

theorem cmdSetGpioDirection (f0 f1 f4 f5 f6 f7 : Bool) : Statement (.cmdSetGpioDirection f0 f1 f4 f5 f6 f7) := ⟨rfl, rfl, rfl⟩

theorem cmdSetGpioValue (f0 f1 f4 f5 f6 f7 : Bool) : Statement (.cmdSetGpioValue f0 f1 f4 f5 f6 f7) := ⟨rfl, rfl, rfl⟩

theorem cmdSetPower (level : Byte) : Statement (.cmdSetPower level) := ⟨rfl, rfl, rfl⟩

theorem feed (b : Byte) : Statement (.feed b) := ⟨rfl, rfl, rfl⟩

theorem feedChunk (c : List Byte) : Statement (.feedChunk c) := ⟨rfl, rfl, rfl⟩

theorem asmReset : Statement (.asmReset) := ⟨rfl, rfl, rfl⟩

theorem frameEncode (payload : List Byte) : Statement (.frameEncode payload) := ⟨rfl, rfl, rfl⟩

theorem decode (f : Frame) : Statement (.decode f) := ⟨rfl, rfl, rfl⟩

theorem encode (p : Packet) : Statement (.encode p) := ⟨rfl, rfl, rfl⟩

theorem transmit (p : Packet) : Statement (.transmit p) := ⟨rfl, rfl, rfl⟩

theorem processChunk (c : List Byte) : Statement (.processChunk c) := ⟨rfl, rfl, rfl⟩

theorem poll : Statement (.poll) := ⟨rfl, rfl, rfl⟩

theorem close : Statement (.close) := ⟨rfl, rfl, rfl⟩

theorem xportErr : Statement (.xportErr) := ⟨rfl, rfl, rfl⟩

end Sys2Proof.Laws.RowOfTable
end

