-- ==== Sys2Proof/Tests/Slice0.lean ====
section
/-! SUPPORT. Tests against 95_test_vectors.md, words written out from the encodings of spec/, and one witness for each
hypothesis of the statements. -/

namespace Sys2Proof.Tests

open Sys2Proof.Machine

/-! ### Small states, and what a step shows -/

/-- The reset state with this assembler. -/
def st (buf : Frame) (escaping : Bool) : State := { State.reset with asm := { buf := buf, escaping := escaping } }

/-- One byte of room left: `BUF_CAP` is 2 and one byte is buffered. -/
def oneLeft (escaping : Bool) : State := { st [0x41#8] escaping with par := { bufCap := some 2, readMax := some 3 } }

/-- No room left. -/
def full (escaping : Bool) : State := { st [0x41#8] escaping with par := { bufCap := some 1, readMax := none } }

def next? : Host.Outcome State Fault Refusal → Option State
  | .next t => some t
  | _ => none

/-- The assembler after, and what went out. -/
def seen (o : Host.Outcome State Fault Refusal) : Option (Assembler × List Output) :=
  (next? o).map fun t => (t.asm, t.trace)

def returned (o : Host.Outcome State Fault Refusal) : Option Ret := (next? o).map State.ret

def faulted : Host.Outcome State Fault Refusal → Option Fault
  | .fault r => some r
  | _ => none

/-- What one event does when it is the next input. -/
def onEvent (e : Input) (s : State) : Host.Outcome State Fault Refusal := step (s.setInputs [e])

def norm (buf : Frame) : Assembler := { buf := buf, escaping := false }

/-! ### Well-formedness: an ill-formed term for each check, refused -/

theorem test_wellFormed_rxUnescLit : (Instr.rxUnescLit 0xDC#8).wellFormed = false ∧
    (Instr.rxUnescLit 0xDD#8).wellFormed = false ∧ (Instr.rxUnescLit 0xC0#8).wellFormed = true := by decide

theorem test_wellFormed_rxData : (Instr.rxData 0xDB#8).wellFormed = false ∧
    (Instr.rxData 0xC0#8).wellFormed = false ∧ (Instr.rxData 0xDC#8).wellFormed = true := by decide

theorem test_wellFormed_txLit : (Instr.txLit 0xDB#8).wellFormed = false ∧
    (Instr.txLit 0xC0#8).wellFormed = false ∧ (Instr.txLit 0xDD#8).wellFormed = true := by decide

theorem test_wellFormed_decUnknown : (Instr.decUnknown 0x0F#8 []).wellFormed = false ∧
    (Instr.decUnknown 0x04#8 []).wellFormed = false ∧ (Instr.decUnknown 0x10#8 []).wellFormed = true := by decide

/-! ### Words written out from the encodings, one for every row that has one -/

/-- 30_encoding.md R61. -/
theorem test_decode_rxb :
    decodeInput true (.rxByte 0b11011100#8) = .ok .rxUnescEnd ∧
    decodeInput true (.rxByte 0b11011101#8) = .ok .rxUnescEsc ∧
    decodeInput true (.rxByte 0b11011011#8) = .ok (.rxUnescLit 0xDB#8) ∧
    decodeInput false (.rxByte 0b11011011#8) = .ok .rxEsc ∧
    decodeInput false (.rxByte 0b11000000#8) = .ok .rxEnd ∧
    decodeInput false (.rxByte 0b11011101#8) = .ok (.rxData 0xDD#8) := ⟨rfl, rfl, rfl, rfl, rfl, rfl⟩

/-- 30_encoding.md R62. -/
theorem test_decode_txb :
    decodeInput false (.txByte 0b11000000#8) = .ok .txEscEnd ∧
    decodeInput true (.txByte 0b11011011#8) = .ok .txEscEsc ∧
    decodeInput false (.txByte 0b11011100#8) = .ok (.txLit 0xDC#8) ∧
    decodeInput false .txEnd = .ok .txTerm := ⟨rfl, rfl, rfl, rfl⟩

/-- 30_encoding.md R63. -/
theorem test_decode_tag_low :
    decodeInput false (.frame [0b00000000#8, 1#8]) = .ok (.decQuat [1#8]) ∧
    decodeInput false (.frame [0b00000001#8]) = .ok (.decAcc []) ∧
    decodeInput false (.frame [0b00000010#8]) = .ok (.decGyro []) ∧
    decodeInput false (.frame [0b00000011#8]) = .ok (.decMag []) ∧
    decodeInput false (.frame [0b00000100#8, 0#8]) = .ok (.decTemperature [0#8]) ∧
    decodeInput false (.frame [0b00000101#8]) = .ok (.decGpio []) ∧
    decodeInput false (.frame [0b00000110#8]) = .ok (.decColor []) ∧
    decodeInput false (.frame [0b00000111#8]) = .ok (.decBlink []) ∧
    decodeInput false (.frame [0b00001000#8]) = .ok (.decIr []) := ⟨rfl, rfl, rfl, rfl, rfl, rfl, rfl, rfl, rfl⟩

/-- 30_encoding.md R63; 95_test_vectors.md V-C33, V-C36. -/
theorem test_decode_tag_high :
    decodeInput false (.frame [0b00001001#8]) = .ok (.decStream []) ∧
    decodeInput false (.frame [0b00001010#8]) = .ok (.decVersion []) ∧
    decodeInput false (.frame [0b00001011#8]) = .ok (.decId []) ∧
    decodeInput false (.frame [0b00001100#8]) = .ok (.decCal []) ∧
    decodeInput false (.frame [0b00001101#8]) = .ok (.decGpioDdr []) ∧
    decodeInput false (.frame [0b00001110#8]) = .ok (.decGpioPort []) ∧
    decodeInput false (.frame [0b00001111#8]) = .ok (.decPower []) ∧
    decodeInput false (.frame [0b00010000#8]) = .ok (.decUnknown 0x10#8 []) ∧
    decodeInput false (.frame [0b00010110#8, 1#8]) = .ok (.decUnknown 0x16#8 [1#8]) ∧
    decodeInput false (.frame []) = .ok .decEmpty := ⟨rfl, rfl, rfl, rfl, rfl, rfl, rfl, rfl, rfl, rfl⟩

/-- 30_encoding.md R55; the frames of 95_test_vectors.md V-C1 to V-C8 as PKT words. -/
theorem test_decode_pkt_low :
    decodeInput false (.packet [0x00#8, 0x3F#8, 0x80#8, 0#8, 0#8, 0xC0#8, 0#8, 0#8, 0#8, 0#8, 0#8, 0#8, 0#8, 0#8, 0#8, 0#8,
      0#8]) = .ok (.encQuat 0x3F800000#32 0xC0000000#32 0#32 0#32) ∧
    decodeInput false (.packet [0x01#8, 0xFF#8, 0xFF#8, 0x01#8, 0#8, 0x80#8, 0#8]) =
      .ok (.encAcc 0xFFFF#16 0x0100#16 0x8000#16) ∧
    decodeInput false (.packet [0x02#8, 0xC0#8, 0xC0#8, 0xDB#8, 0#8, 0#8, 0xC0#8]) =
      .ok (.encGyro 0xC0C0#16 0xDB00#16 0x00C0#16) ∧
    decodeInput false (.packet [0x03#8, 0#8, 1#8, 0x7F#8, 0xFF#8, 0x80#8, 1#8]) =
      .ok (.encMag 0x0001#16 0x7FFF#16 0x8001#16) ∧
    decodeInput false (.packet [0x05#8, 0xA5#8]) = .ok (.encGpio 0xA5#8) ∧
    decodeInput false (.packet [0x06#8, 0xFF#8, 0#8, 0xFE#8]) = .ok (.encColor 0xFF#8 0#8 0xFE#8) ∧
    decodeInput false (.packet [0x07#8, 1#8, 2#8, 3#8]) = .ok (.encBlink 1#8 2#8 3#8) ∧
    decodeInput false (.packet [0x08#8, 0x80#8]) = .ok (.encIr 0x80#8) := ⟨rfl, rfl, rfl, rfl, rfl, rfl, rfl, rfl⟩

/-- 30_encoding.md R55; the frames of 95_test_vectors.md V-C9 to V-C17 as PKT words, and words that are no row. -/
theorem test_decode_pkt_high :
    decodeInput false (.packet [0x09#8, 0xFF#8]) = .ok (.encStream 0xFF#8) ∧
    decodeInput false (.packet [0x0A#8, 1#8, 2#8, 3#8, 4#8]) = .ok (.encVersion 0x01020304#32) ∧
    decodeInput false (.packet [0x0B#8, 0xDE#8, 0xAD#8, 0xBE#8, 0xEF#8]) = .ok (.encId 0xDEADBEEF#32) ∧
    decodeInput false (.packet [0x0C#8, 0#8, 0#8, 0#8, 0#8, 0x3F#8, 0xC0#8, 0#8, 0#8, 0xBF#8, 0xC0#8, 0#8, 0#8, 0x3F#8,
      0x80#8, 0#8, 0#8, 0x3F#8, 0x81#8, 0#8, 0#8, 0x3F#8, 0#8, 0#8, 0#8]) =
      .ok (.encCal 0#32 0x3FC00000#32 0xBFC00000#32 0x3F800000#32 0x3F810000#32 0x3F000000#32) ∧
    decodeInput false (.packet [0x0D#8, 0x0C#8]) = .ok (.encGpioDdr 0x0C#8) ∧
    decodeInput false (.packet [0x0E#8, 0x91#8]) = .ok (.encGpioPort 0x91#8) ∧
    decodeInput false (.packet [0x0F#8, 0xC0#8]) = .ok (.encPower 0xC0#8) ∧
    decodeInput false (.packet [0x04#8, 0#8]) = .error .noPacketRow ∧
    decodeInput false (.packet [0x0F#8]) = .error .noPacketRow ∧
    decodeInput false (.packet []) = .error .noPacketRow := ⟨rfl, rfl, rfl, rfl, rfl, rfl, rfl, rfl, rfl, rfl⟩

/-- 30_encoding.md R59, R60, R72; 95_test_vectors.md V-E4, V-E14, V-E12 as CMD words, and words that are no row. -/
theorem test_decode_cmd :
    decodeInput false (.command [0x06#8, 0xFF#8, 0#8, 0xFE#8]) = .ok (.cmdSetColor 0xFF#8 0#8 0xFE#8) ∧
    decodeInput false (.command [0x09#8, 0b00100011#8]) = .ok (.cmdSetStreamingMode true true false false false true) ∧
    decodeInput false (.command [0x0C#8, 0#8, 0#8, 0#8, 0#8, 0x3F#8, 0xC0#8, 0#8, 0#8, 0xBF#8, 0xC0#8, 0#8, 0#8, 0x3F#8,
      0x80#8, 0#8, 0#8, 0x3F#8, 0x81#8, 0#8, 0#8, 0x3F#8, 0#8, 0#8, 0#8]) =
      .ok (.cmdSetCalibration 0#32 0x3FC00000#32 0xBFC00000#32 0x3F800000#32 0x3F810000#32 0x3F000000#32) ∧
    decodeInput false (.command [0x0D#8, 0b10100011#8]) = .ok (.cmdSetGpioDirection true true false true false true) ∧
    decodeInput false (.command [0x0E#8, 0b10010001#8]) = .ok (.cmdSetGpioValue true false true false false true) ∧
    decodeInput false (.command [0x0F#8, 3#8]) = .ok (.cmdSetPower 3#8) ∧
    decodeInput false (.command [0x0D#8, 0b00000100#8]) = .error .noCommandRow ∧
    decodeInput false (.command [0x05#8, 0#8]) = .error .noCommandRow := ⟨rfl, rfl, rfl, rfl, rfl, rfl, rfl, rfl⟩

/-- An EVENT row has no bits: its event is itself (30_encoding.md R73). -/
theorem test_decode_event :
    decodeInput true (.feed 0xC0#8) = .ok (.feed 0xC0#8) ∧ decodeInput false (.feedChunk [1#8]) = .ok (.feedChunk [1#8]) ∧
    decodeInput false .asmReset = .ok .asmReset ∧ decodeInput false (.frameEncode []) = .ok (.frameEncode []) ∧
    decodeInput false (.decode []) = .ok (.decode []) ∧ decodeInput false (.encode (.ir 1#8)) = .ok (.encode (.ir 1#8)) ∧
    decodeInput false (.transmit (.ir 1#8)) = .ok (.transmit (.ir 1#8)) ∧
    decodeInput false (.processChunk []) = .ok (.processChunk []) ∧ decodeInput false .poll = .ok .poll ∧
    decodeInput false .close = .ok .close ∧ decodeInput false .xportErr = .ok .xportErr :=
  ⟨rfl, rfl, rfl, rfl, rfl, rfl, rfl, rfl, rfl, rfl, rfl⟩

/-! ### Table words -/

/-- Words of the table, as the host numbers them: DEC.ACC with its operand bytes zero, DEC.UNKNOWN, the RXB rows. -/
theorem test_tableWord :
    decodeTableWord 8 0xDC = some .rxUnescEnd ∧ decodeTableWord 8 0xDB = some .rxEsc ∧
    decodeTableWord 8 0xC0 = some .rxEnd ∧ decodeTableWord 8 0x01 = some (.decAcc [0#8, 0#8, 0#8, 0#8, 0#8, 0#8]) ∧
    decodeTableWord 8 0x16 = some (.decUnknown 0x16#8 []) ∧ decodeTableWord 16 0x2309 = some (.decStream [0x23#8]) ∧
    decodeTableWord 0 0 = some .decEmpty := by decide

/-- `withFetchWord` makes a table word the next event: V-A3 (flag set by it) and V-C9. -/
theorem test_withFetchWord :
    seen (step ((st [0x41#8] false).withFetchWord 8 0xDC)) = some (norm [0x41#8, 0xC0#8], []) ∧
    seen (step (State.reset.withFetchWord 16 0x2309)) = some (norm [], [.resultOut (.ok (.stream 0x23#8))]) := by decide

/-! ### Stream assembler: V-A1 to V-A16 -/

theorem test_VA1_data : seen (onEvent (.rxByte 0x41#8) (st [] false)) = some (norm [0x41#8], []) := by decide

theorem test_VA2_esc : seen (onEvent (.rxByte 0xDB#8) (st [0x41#8] false)) = some (⟨[0x41#8], true⟩, []) := by decide

theorem test_VA3_unescEnd : seen (onEvent (.rxByte 0xDC#8) (st [0x41#8] true)) = some (norm [0x41#8, 0xC0#8], []) := by
  decide

theorem test_VA4_unescEsc : seen (onEvent (.rxByte 0xDD#8) (st [0x41#8] true)) = some (norm [0x41#8, 0xDB#8], []) := by
  decide

theorem test_VA6_unescLit_escape :
    seen (onEvent (.rxByte 0xDB#8) (st [0x41#8] true)) = some (norm [0x41#8, 0xDB#8], []) := by decide

theorem test_VA7_unescLit_frameEnd :
    seen (onEvent (.rxByte 0xC0#8) (st [0x41#8] true)) = some (norm [0x41#8, 0xC0#8], []) := by decide

theorem test_VA8_end : seen (exec .rxEnd (st [0x41#8, 0xC0#8] false)) =
    some (norm [], [.frameOut [0x41#8, 0xC0#8]]) := by decide

theorem test_VA9_end_empty : seen (onEvent (.rxByte 0xC0#8) (st [] false)) = some (norm [], []) := by decide

theorem test_VA10_esc_empty : seen (onEvent (.rxByte 0xDB#8) (st [] false)) = some (⟨[], true⟩, []) := by decide

/-- V-A12: the frame is decoded as soon as it is delivered. -/
theorem test_VA12_feed : seen (onEvent (.feed 0xC0#8) (st [0xC0#8] false)) =
    some (norm [], [.frameOut [0xC0#8], .resultOut (.err .unknownType)]) := by decide

theorem test_VA13_data_escapedEnd :
    seen (onEvent (.rxByte 0xDC#8) (st [0x41#8] false)) = some (norm [0x41#8, 0xDC#8], []) := by decide

theorem test_VA16_feed : seen (exec (.feed 0x00#8) (st [0x41#8] false)) = some (norm [0x41#8, 0x00#8], []) := by decide

/-- V-A22. -/
theorem test_VA22_feedChunk : seen (exec (.feedChunk [0x09#8, 0xDB#8, 0xDB#8, 0xC0#8]) State.reset) =
    some (norm [], [.frameOut [0x09#8, 0xDB#8]]) := by decide

/-- V-A30, returned in arrival order. -/
theorem test_VA30_feedChunk :
    returned (exec (.feedChunk [8#8, 1#8, 0xC0#8, 8#8, 2#8, 0xC0#8, 8#8, 3#8, 0xC0#8]) State.reset) =
      some (.frames [[8#8, 1#8], [8#8, 2#8], [8#8, 3#8]]) := by decide

/-! ### Frame codec: V-B -/

theorem test_VB1_frameEncode : returned (exec (.frameEncode []) State.reset) = some (.bytes [0xC0#8]) := by decide

theorem test_VB7_frameEncode : returned (exec (.frameEncode [0xC0#8, 0xDB#8, 0xDC#8, 0xDD#8]) State.reset) =
    some (.bytes [0xDB#8, 0xDC#8, 0xDB#8, 0xDD#8, 0xDC#8, 0xDD#8, 0xC0#8]) := by decide

theorem test_VB3_escEnd :
    seen (onEvent (.txByte 0xC0#8) State.reset) = some (norm [], [.txByte 0xDB#8, .txByte 0xDC#8]) := by decide

theorem test_VB4_escEsc :
    seen (onEvent (.txByte 0xDB#8) State.reset) = some (norm [], [.txByte 0xDB#8, .txByte 0xDD#8]) := by decide

theorem test_VB5_lit : seen (onEvent (.txByte 0xDC#8) State.reset) = some (norm [], [.txByte 0xDC#8]) := by decide

theorem test_VB2_term : seen (onEvent .txEnd State.reset) = some (norm [], [.txByte 0xC0#8]) := by decide

/-! ### Packet decode: V-C -/

theorem test_VC1_quat : returned (onEvent (.frame [0x00#8, 0x3F#8, 0x80#8, 0#8, 0#8, 0xC0#8, 0#8, 0#8, 0#8, 0#8, 0#8, 0#8,
    0#8, 0#8, 0#8, 0#8, 0#8]) State.reset) =
    some (.result (.ok (.quat 0x3F800000#32 0xC0000000#32 0#32 0#32))) := by decide

theorem test_VC41_quat_short :
    returned (onEvent (.frame [0#8, 0#8]) State.reset) = some (.result (.err .sizeMismatch)) := by decide

/-- V-C2, with the values of the patterns. -/
theorem test_VC2_acc :
    returned (onEvent (.frame [0x01#8, 0xFF#8, 0xFF#8, 0x01#8, 0#8, 0x80#8, 0#8]) State.reset) =
      some (.result (.ok (.acc 0xFFFF#16 0x0100#16 0x8000#16))) ∧
    sext16 0xFFFF#16 = -1 ∧ sext16 0x0100#16 = 256 ∧ sext16 0x8000#16 = -32768 := by decide

theorem test_VC3_gyro :
    returned (onEvent (.frame [0x02#8, 0xC0#8, 0xC0#8, 0xDB#8, 0#8, 0#8, 0xC0#8]) State.reset) =
      some (.result (.ok (.gyro 0xC0C0#16 0xDB00#16 0x00C0#16))) ∧
    sext16 0xC0C0#16 = -16192 ∧ sext16 0xDB00#16 = -9472 ∧ sext16 0x00C0#16 = 192 := by decide

theorem test_VC4_mag :
    returned (onEvent (.frame [0x03#8, 0#8, 1#8, 0x7F#8, 0xFF#8, 0x80#8, 1#8]) State.reset) =
      some (.result (.ok (.mag 0x0001#16 0x7FFF#16 0x8001#16))) ∧ sext16 0x7FFF#16 = 32767 ∧ sext16 0x8001#16 = -32767 := by
  decide

theorem test_VC5_gpio :
    returned (onEvent (.frame [5#8, 0xA5#8]) State.reset) = some (.result (.ok (.gpio 0xA5#8))) := by decide

theorem test_VC6_color : returned (onEvent (.frame [6#8, 0xFF#8, 0#8, 0xFE#8]) State.reset) =
    some (.result (.ok (.color 0xFF#8 0#8 0xFE#8))) := by decide

theorem test_VC40_color_long :
    returned (onEvent (.frame [6#8, 1#8, 2#8, 3#8, 4#8]) State.reset) = some (.result (.err .sizeMismatch)) := by decide

theorem test_VC7_blink : returned (onEvent (.frame [7#8, 1#8, 2#8, 3#8]) State.reset) =
    some (.result (.ok (.blink 1#8 2#8 3#8))) := by decide

theorem test_VC8_ir : returned (onEvent (.frame [8#8, 0x80#8]) State.reset) = some (.result (.ok (.ir 128#8))) := by
  decide

theorem test_VC10_stream :
    returned (onEvent (.frame [9#8, 0xFF#8]) State.reset) = some (.result (.ok (.stream 0xFF#8))) := by decide

theorem test_VC37_stream_short :
    returned (onEvent (.frame [9#8]) State.reset) = some (.result (.err .sizeMismatch)) := by decide

theorem test_VC11_version : returned (onEvent (.frame [10#8, 1#8, 2#8, 3#8, 4#8]) State.reset) =
    some (.result (.ok (.version 16909060#32))) := by decide

theorem test_VC12_id : returned (onEvent (.frame [11#8, 0xDE#8, 0xAD#8, 0xBE#8, 0xEF#8]) State.reset) =
    some (.result (.ok (.id 3735928559#32))) := by decide

theorem test_VC13_cal : returned (onEvent (.frame [12#8, 0#8, 0#8, 0#8, 0#8, 0x3F#8, 0xC0#8, 0#8, 0#8, 0xBF#8, 0xC0#8, 0#8,
    0#8, 0x3F#8, 0x80#8, 0#8, 0#8, 0x3F#8, 0x80#8, 0#8, 0#8, 0x3F#8, 0#8, 0#8, 0#8]) State.reset) =
    some (.result (.ok (.cal 0#32 0x3FC00000#32 0xBFC00000#32 0x3F800000#32 0x3F800000#32 0x3F000000#32))) := by decide

theorem test_VC15_gpioDdr :
    returned (onEvent (.frame [13#8, 0x0C#8]) State.reset) = some (.result (.ok (.gpioDdr 0x0C#8))) := by decide

theorem test_VC16_gpioPort :
    returned (onEvent (.frame [14#8, 0x91#8]) State.reset) = some (.result (.ok (.gpioPort 0x91#8))) := by decide

theorem test_VC17_power :
    returned (onEvent (.frame [15#8, 0xC0#8]) State.reset) = some (.result (.ok (.power 192#8))) := by decide

theorem test_VC43_decode_merged :
    returned (exec (.decode [15#8, 0xC0#8, 15#8, 2#8]) State.reset) = some (.result (.err .sizeMismatch)) := by decide

theorem test_VC30_temperature : returned (onEvent (.frame [4#8]) State.reset) = some (.result (.err .unknownType)) ∧
    returned (onEvent (.frame [4#8, 0#8, 0#8]) State.reset) = some (.result (.err .unknownType)) := by decide

theorem test_VC34_unknown :
    returned (onEvent (.frame [0xFF#8, 1#8, 2#8]) State.reset) = some (.result (.err .unknownType)) := by decide

/-- V-C44: the open parameter, whatever it is. -/
theorem test_VC44_empty :
    returned (exec .decEmpty State.reset) = some (.result (.err Config.emptyFrameErr)) ∧
    exec (.decode []) State.reset = exec .decEmpty State.reset := ⟨rfl, rfl⟩

/-- 60_exceptions.md R200. -/
theorem test_statusCode : statusCode (.ok (.ir 0#8)) = 0 ∧ statusCode (.err .unknownType) = 1 ∧
    statusCode (.err .sizeMismatch) = 2 ∧ errorCode .transportError = 3 := by decide

/-! ### Packet encode: V-D -/

theorem test_VD1_encQuat : returned (exec (.encQuat 0x3F800000#32 0xC0000000#32 0#32 0#32) State.reset) =
    some (.bytes [0x00#8, 0x3F#8, 0x80#8, 0#8, 0#8, 0xC0#8, 0#8, 0#8, 0#8, 0#8, 0#8, 0#8, 0#8, 0#8, 0#8, 0#8, 0#8]) := by
  decide

theorem test_VD2_encAcc : returned (exec (.encAcc (trunc16 (-1)) (trunc16 256) (trunc16 (-32768))) State.reset) =
    some (.bytes [1#8, 0xFF#8, 0xFF#8, 1#8, 0#8, 0x80#8, 0#8]) := by decide

theorem test_VD3_encGyro : returned (exec (.encGyro (trunc16 (-16192)) (trunc16 (-9472)) (trunc16 192)) State.reset) =
    some (.bytes [2#8, 0xC0#8, 0xC0#8, 0xDB#8, 0#8, 0#8, 0xC0#8]) := by decide

theorem test_VD4_encMag : returned (exec (.encMag (trunc16 1) (trunc16 32767) (trunc16 (-32767))) State.reset) =
    some (.bytes [3#8, 0#8, 1#8, 0x7F#8, 0xFF#8, 0x80#8, 1#8]) := by decide

theorem test_VD5_encBytes :
    returned (exec (.encGpio 0xA5#8) State.reset) = some (.bytes [5#8, 0xA5#8]) ∧
    returned (exec (.encColor 0xC0#8 0xDB#8 0#8) State.reset) = some (.bytes [6#8, 0xC0#8, 0xDB#8, 0#8]) ∧
    returned (exec (.encBlink 1#8 2#8 3#8) State.reset) = some (.bytes [7#8, 1#8, 2#8, 3#8]) ∧
    returned (exec (.encIr 128#8) State.reset) = some (.bytes [8#8, 0x80#8]) ∧
    returned (exec (.encStream 0x23#8) State.reset) = some (.bytes [9#8, 0x23#8]) := by decide

theorem test_VD11_encWords :
    returned (exec (.encVersion 0x01020304#32) State.reset) = some (.bytes [10#8, 1#8, 2#8, 3#8, 4#8]) ∧
    returned (exec (.encId 0xDEADBEEF#32) State.reset) = some (.bytes [11#8, 0xDE#8, 0xAD#8, 0xBE#8, 0xEF#8]) := by decide

theorem test_VD15_encCal :
    returned (exec (.encCal 0#32 0x3FC00000#32 0xBFC00000#32 0x3F800000#32 0x3F800000#32 0x3F000000#32) State.reset) =
      some (.bytes [12#8, 0#8, 0#8, 0#8, 0#8, 0x3F#8, 0xC0#8, 0#8, 0#8, 0xBF#8, 0xC0#8, 0#8, 0#8, 0x3F#8, 0x80#8, 0#8, 0#8,
        0x3F#8, 0x80#8, 0#8, 0#8, 0x3F#8, 0#8, 0#8, 0#8]) := by decide

theorem test_VD16_encMasks :
    returned (exec (.encGpioDdr 0xC0#8) State.reset) = some (.bytes [13#8, 0xC0#8]) ∧
    returned (exec (.encGpioPort 0x91#8) State.reset) = some (.bytes [14#8, 0x91#8]) ∧
    returned (exec (.encPower 0xDB#8) State.reset) = some (.bytes [15#8, 0xDB#8]) ∧
    returned (exec (.encode (.power 3#8)) State.reset) = some (.bytes [15#8, 3#8]) := by decide

/-- V-D14. -/
theorem test_VD14_transmit : seen (exec (.transmit (.id 0xDBDBDBDB#32)) State.reset) = some (norm [],
    [0x0B#8, 0xDB#8, 0xDD#8, 0xDB#8, 0xDD#8, 0xDB#8, 0xDD#8, 0xDB#8, 0xDD#8, 0xC0#8].map .txByte) := by decide

/-! ### Commands: V-E; V-F7 that `S` is untouched -/

theorem test_VE1_setColor : seen (exec (.cmdSetColor 255#8 0#8 255#8) (st [9#8] true)) = some (⟨[9#8], true⟩,
    [0x06#8, 0xFF#8, 0x00#8, 0xFF#8, 0xC0#8].map .txByte) := by decide

theorem test_VE4_setStreamingMode :
    seen (onEvent (.command [0x09#8, 0x23#8]) State.reset) = some (norm [], [9#8, 0x23#8, 0xC0#8].map .txByte) ∧
    seen (exec (.cmdSetStreamingMode true true true true true true) State.reset) =
      some (norm [], [9#8, 0x3F#8, 0xC0#8].map .txByte) := by decide

theorem test_VE8_setCalibration :
    seen (exec (.cmdSetCalibration 0#32 0x3FC00000#32 0xBFC00000#32 0x3F800000#32 0x3F800000#32 0x3F000000#32) State.reset) =
      some (norm [], [12#8, 0#8, 0#8, 0#8, 0#8, 0x3F#8, 0xDB#8, 0xDC#8, 0#8, 0#8, 0xBF#8, 0xDB#8, 0xDC#8, 0#8, 0#8, 0x3F#8,
        0x80#8, 0#8, 0#8, 0x3F#8, 0x80#8, 0#8, 0#8, 0x3F#8, 0#8, 0#8, 0#8, 0xC0#8].map .txByte) := by decide

theorem test_VE10_setGpioDirection : seen (exec (.cmdSetGpioDirection false false false false true true) State.reset) =
    some (norm [], [0x0D#8, 0xDB#8, 0xDC#8, 0xC0#8].map .txByte) := by decide

theorem test_VE14_setGpioDirection : seen (exec (.cmdSetGpioDirection true true false true false true) State.reset) =
    some (norm [], [0x0D#8, 0xA3#8, 0xC0#8].map .txByte) := by decide

theorem test_VE12_setGpioValue : seen (exec (.cmdSetGpioValue true false true false false true) State.reset) =
    some (norm [], [0x0E#8, 0x91#8, 0xC0#8].map .txByte) := by decide

theorem test_VE16_setPower :
    seen (exec (.cmdSetPower 0xDB#8) State.reset) = some (norm [], [0x0F#8, 0xDB#8, 0xDD#8, 0xC0#8].map .txByte) := by decide

/-! ### Control events and errors: V-F -/

theorem test_VF1_close : seen (onEvent .close (st [6#8, 1#8, 2#8] false)) = some (norm [], []) := by decide

theorem test_VF2_reset : seen (onEvent .asmReset (st [6#8] true)) = some (norm [], []) := by decide

theorem test_VF4_xportErr :
    seen (onEvent .xportErr (st [9#8] false)) = some (norm [], [.errOut .transportError]) := by decide

theorem test_VF5_poll_empty : seen (onEvent .poll (st [9#8] false)) = some (norm [9#8], []) ∧
    returned (onEvent .poll (st [9#8] false)) = some (.results []) := by decide

theorem test_VF6_poll : seen (onEvent .poll ((st [9#8] false).setReads [.bytes [0x23#8, 0xC0#8]])) =
    some (norm [], [.frameOut [9#8, 0x23#8], .resultOut (.ok (.stream 0x23#8))]) := by decide

/-- V-F8. -/
theorem test_VF8_overflow : faulted (onEvent (.rxByte 0x41#8) (full false)) = some .rxOverflow ∧
    seen (onEvent (.rxByte 0x41#8) (oneLeft false)) = some (norm [0x41#8, 0x41#8], []) := by decide

/-- P2, third chunk: errors stop nothing. -/
theorem test_P2_processChunk :
    returned (exec (.processChunk [0xC0#8, 6#8, 1#8, 0xC0#8, 0x10#8, 0xC0#8, 0xC0#8]) (st [4#8, 1#8] false)) =
      some (.results [.err .unknownType, .err .sizeMismatch, .err .unknownType]) := by decide

/-- S4: the order of the outputs of one chunk. -/
theorem test_S4_processChunk :
    (seen (exec (.processChunk [9#8, 0x23#8, 0xC0#8, 6#8, 0xFF#8, 0#8, 0xFF#8, 0xC0#8]) State.reset)).map
      (fun x => (framesOf x.2, resultsOf x.2)) =
      some ([[9#8, 0x23#8], [6#8, 0xFF#8, 0#8, 0xFF#8]], [.ok (.stream 0x23#8), .ok (.color 255#8 0#8 255#8)]) := by decide

/-! ### Witnesses: states and operands that meet the hypotheses of each statement -/

theorem room_oneLeft (e : Bool) : (oneLeft e).roomFor 1 := fun n h => by
  cases h; exact Nat.le_refl 2

theorem room_reset (k : Nat) : State.reset.roomFor k := fun n h => by cases h

/-- The six RXB statements, at the byte values next to the excluded ones. -/
theorem witness_RxRows :
    ((oneLeft true).asm.escaping = true ∧ (oneLeft true).roomFor 1 ∧ (0xC0#8 : Byte) ≠ 0xDC#8 ∧ (0xC0#8 : Byte) ≠ 0xDD#8 ∧
      (0xDB#8 : Byte) ≠ 0xDC#8 ∧ (0xDE#8 : Byte) ≠ 0xDD#8) ∧
    ((oneLeft false).asm.escaping = false ∧ (oneLeft false).roomFor 1 ∧ (0xDC#8 : Byte) ≠ 0xDB#8 ∧
      (0xDC#8 : Byte) ≠ 0xC0#8 ∧ (0xDD#8 : Byte) ≠ 0xDB#8) :=
  ⟨⟨rfl, room_oneLeft true, by decide, by decide, by decide, by decide⟩,
   ⟨rfl, room_oneLeft false, by decide, by decide, by decide⟩⟩

/-- RxEndDeliversTheWholeBufferOrNothing: a non-empty and an empty buffer. -/
theorem witness_RxEnd : (st [0x41#8] false).asm.escaping = false ∧ (st [0x41#8] false).asm.buf ≠ [] ∧
    State.reset.asm.escaping = false ∧ State.reset.asm.buf = [] := by decide

/-- FeedTakesTheBranchOfTheTransitionFunction, each branch. -/
theorem witness_Feed : (oneLeft true).roomFor 1 ∧ (oneLeft false).roomFor 1 ∧ State.reset.roomFor 1 ∧
    State.reset.asm.buf = [] ∧ (oneLeft true).asm.escaping = true ∧ (oneLeft false).asm.escaping = false :=
  ⟨room_oneLeft true, room_oneLeft false, room_reset 1, rfl, rfl, rfl⟩

/-- AppendToAFullBufferFaults: capacity 1, and capacity 0 with nothing buffered. -/
theorem witness_FullBuffer : (full false).par.bufCap = some 1 ∧ (full false).asm.buf.length = 1 ∧
    (full true).par.bufCap = some 1 ∧ (full true).asm.buf.length = 1 ∧
    (State.mk Assembler.reset [] [] [] [] .nothing ⟨some 0, none⟩).asm.buf.length = 0 := by decide

/-- OneByteGrowsOrClearsTheBufferAndTheFlagLastsOneByte: from ESCAPED, and from NORMAL with and without the ESCAPE. -/
theorem witness_OneByte :
    (∃ t, exec (.feed 0xDC#8) (oneLeft true) = .next t) ∧ (∃ t, exec (.feed 0xDB#8) (oneLeft false) = .next t) ∧
    ∃ t, exec (.feed 0xC0#8) (oneLeft false) = .next t := ⟨⟨_, rfl⟩, ⟨_, rfl⟩, ⟨_, rfl⟩⟩

/-- FeedChunkIsFeedOfEachByteInOrder: a byte that ends a frame, then a rest that ends another. -/
theorem witness_FeedChunk : ∃ t u, exec (.feed 0xC0#8) (st [1#8] false) = .next t ∧ t.ret = .frame (some [1#8]) ∧
    exec (.feedChunk [2#8, 0xC0#8]) t = .next u ∧ u.ret = .frames [[2#8]] ∧ (oneLeft false).roomFor [0x41#8].length :=
  ⟨_, _, rfl, rfl, rfl, rfl, room_oneLeft false⟩

/-- AssemblerInvertsTheFrameCodec, ExtraTerminatorsAreAbsorbed, TruncatedEscapeMergesTwoFrames: an empty and a non-empty
buffer, payloads of special bytes. -/
theorem witness_Codec :
    (st [0x41#8] false).par.bufCap = none ∧ (st [0x41#8] false).asm = ⟨[0x41#8], false⟩ ∧
    (st [] false).par.bufCap = none ∧ (st [] false).asm = ⟨[], false⟩ ∧
    (∀ p ∈ [[0xC0#8], [0xDB#8, 0xC0#8]], p ≠ ([] : List Byte)) := by decide

/-- TwoTerminatorsRestoreTheResetState: both values of the flag. -/
theorem witness_TwoTerminators : (oneLeft false).roomFor 1 ∧ (oneLeft false).asm.escaping = false ∧
    (oneLeft true).roomFor 1 := ⟨room_oneLeft false, rfl, room_oneLeft true⟩

/-- TxRowsEmitTheirWireBytes, UnescapeInvertsEscape, WireFormHasOneTerminatorAndIsInjective. -/
theorem witness_Tx : (0xDC#8 : Byte) ≠ 0xC0#8 ∧ (0xDC#8 : Byte) ≠ 0xDB#8 ∧ esc 0xC0#8 = [0xDB#8, 0xDC#8] ∧
    (0xC0#8 : Byte) ≠ 0xDC#8 ∧ (0xC0#8 : Byte) ≠ 0xDD#8 ∧ 0 + 1 < (frameEncode [0xDB#8]).length ∧
    (frameEncode [0xDB#8])[0]? = some 0xDB#8 ∧ frameEncode [1#8] = frameEncode [1#8] := by decide

/-- FieldsAreBigEndianAndSigned16IsTwosComplement, at both ends of the range. -/
theorem witness_Signed : (-32768 : Int) ≤ -32768 ∧ (-32768 : Int) ≤ 32767 ∧ (32767 : Int) ≤ 32767 ∧
    (0x7FFF#16 : S16).toNat < 32768 ∧ ¬ (0x8000#16 : S16).toNat < 32768 := by decide

/-- DecodeTestsTheTagThenTheLength: tag 4, tags 16 and 255, a right and a wrong length. -/
theorem witness_Decode : (4#8 : Byte).toNat = 4 ∧ 15 < (16#8 : Byte).toNat ∧ 15 < (255#8 : Byte).toNat ∧
    ((15#8 : Byte).toNat, 1) ∈ [(14, 1), (15, 1)] ∧ ([] : List Byte).length ≠ 1 ∧ [0xC0#8].length = 1 := by decide

/-- The TAG row statements: payloads one byte short and one too long. -/
theorem witness_TagLengths : (List.replicate 15 0#8).length ≠ 16 ∧ (List.replicate 17 0#8).length ≠ 16 ∧
    (List.replicate 5 0#8).length ≠ 6 ∧ (List.replicate 0 0#8).length ≠ 1 ∧ (List.replicate 2 0#8).length ≠ 3 ∧
    (List.replicate 3 0#8).length ≠ 4 ∧ (List.replicate 23 0#8).length ≠ 24 ∧ 16 ≤ (16#8 : Byte).toNat ∧
    16 ≤ (255#8 : Byte).toNat := by decide

/-- EveryTagRowOnlyEmitsItsResult, DecodeAcceptsExactlyTheWellFormedFrames. -/
theorem witness_Tag : (tableRow .decEmpty).format = .tag ∧ (tableRow (.decPower [])).format = .tag ∧
    decodeFrame [15#8, 0xC0#8] = .ok (.power 0xC0#8) ∧ payloadWidth? 15#8 = some 1 := by decide

/-- EncodeAndDecodeAreInverse, both halves. -/
theorem witness_RoundTrip :
    (∃ t u, exec (.encode (.power 1#8)) State.reset = .next t ∧ t.ret = .bytes [15#8, 1#8] ∧
      exec (.decode [15#8, 1#8]) t = .next u) ∧
    ∃ t u, exec (.decode [15#8, 1#8]) State.reset = .next t ∧ t.ret = .result (.ok (.power 1#8)) ∧
      exec (.encode (.power 1#8)) t = .next u := ⟨⟨_, _, rfl, rfl, rfl⟩, ⟨_, _, rfl, rfl, rfl⟩⟩

/-- TransmitEmitsTheWholeWireForm and the four statements about commands: no reply waiting, and an accepting one. -/
theorem witness_Transmit : State.reset.writes.head? ≠ some .failed ∧
    (State.reset.setWrites [.accepted, .failed]).writes.head? ≠ some .failed := by decide

/-- TransportErrorsDiscardAndReport. -/
theorem witness_TransportError : (State.reset.setReads [.failed]).reads = .failed :: [] ∧
    (State.reset.setWrites [.failed]).writes = .failed :: [] ∧ (tableRow (.cmdSetPower 0#8)).format = .cmd := by decide

/-- TheCommandSetIsClosed. -/
theorem witness_Command : decodeInput false (.command [15#8, 3#8]) = .ok (.cmdSetPower 3#8) := rfl

/-- ProcessChunkDecodesEveryFrameInOrder. -/
theorem witness_ProcessChunk : (∃ u, exec (.feedChunk [8#8, 1#8, 0xC0#8]) State.reset = .next u ∧
    u.ret = .frames [[8#8, 1#8]]) ∧ (oneLeft false).roomFor [0x41#8].length := ⟨⟨_, rfl, rfl⟩, room_oneLeft false⟩

/-- PollProcessesOneBoundedRead: no reply, a read exactly at `READ_MAX`, and one over it. -/
theorem witness_Poll : State.reset.reads = [] ∧
    (oneLeft false).par.readMax = some 3 ∧ [1#8, 2#8, 3#8].length ≤ 3 ∧ 3 < [1#8, 2#8, 3#8, 4#8].length ∧
    ((oneLeft false).setReads [.bytes [1#8]]).reads = .bytes [1#8] :: [] ∧
    ((oneLeft false).setReads [.bytes [1#8]]).roomFor [1#8].length :=
  ⟨rfl, rfl, by decide, by decide, rfl, room_oneLeft false⟩

/-- The READ_MAX clause: four bytes waiting, three read, one left. -/
theorem test_poll_readMax :
    (next? (exec .poll ({ State.reset with par := { bufCap := none, readMax := some 3 } }.setReads
      [.bytes [1#8, 2#8, 3#8, 4#8]]))).map (fun t => (t.asm.buf, t.reads)) =
      some ([1#8, 2#8, 3#8], [.bytes [4#8]]) := by decide

/-- LoopbackReturnsThePacketsSent. -/
theorem witness_Loopback : State.reset.par.bufCap = none ∧ State.reset.asm = Assembler.reset ∧ State.reset.writes = [] ∧
    [[6#8], [], [1#8, 2#8]].flatten = [6#8, 1#8, 2#8] := by decide

/-- StepRunsTheOperationTheEventSelects: no input, an operation that completes, one that faults, an event refused. -/
theorem witness_Step : State.reset.inputs = [] ∧
    (decodeInput false (.feed 1#8) = .ok (.feed 1#8) ∧ ∃ t, exec (.feed 1#8) State.reset = .next t) ∧
    exec (.feed 1#8) (full false) = .fault .rxOverflow ∧
    decodeInput false (.packet []) = .error .noPacketRow ∧ decodeInput false (.command []) = .error .noCommandRow :=
  ⟨rfl, ⟨rfl, _, rfl⟩, rfl, rfl, rfl⟩

/-- EncodedOperationsDecodeBack, DecodedOperationsAreWellFormedAndEncodeBack: a row with a context and one without. -/
theorem witness_Encode : (Instr.rxUnescLit 0xC0#8).wellFormed = true ∧
    (Instr.rxUnescLit 0xC0#8).context = some true ∧ (Instr.decUnknown 16#8 []).wellFormed = true ∧
    (Instr.decUnknown 16#8 []).context = none ∧ decodeRx true 0xC0#8 = .rxUnescLit 0xC0#8 := by decide

/-- EveryStepKeepsTheBufferWithinCapacityAndFramesNonEmpty, from a state that delivers a frame; and
EveryStepConsumesOneEventAndOnlyAddsOutputs. -/
theorem witness_InvariantBuffer : ((oneLeft false).setInputs [.feed 0xC0#8]).wf ∧
    ∃ t, step ((oneLeft false).setInputs [.feed 0xC0#8]) = .next t :=
  ⟨⟨rfl, fun _ h => by cases h⟩, _, rfl⟩

/-- EveryStepKeepsResultsFollowingFramesOneForOne. -/
theorem witness_InvariantResults : ((oneLeft false).setInputs [.feed 0xC0#8]).pipelineInv ∧
    ∃ t, step ((oneLeft false).setInputs [.feed 0xC0#8]) = .next t :=
  ⟨⟨by decide, rfl⟩, _, rfl⟩

/-- ResetMeetsTheInvariants. -/
theorem witness_Reset : ∀ e ∈ [Input.feed 1#8, .poll], e.bypassesAssembler = false := by decide

/-- OutboundAndDecodeOperationsIgnoreTheAssembler, OnlyTheReceivePathSetsTheFlag: one operation of each disjunct. -/
theorem witness_Outbound : (tableRow .txTerm).format = .txb ∧ (∃ t, exec .txTerm State.reset = .next t) ∧
    (tableRow (.decIr [])).format = .tag ∧ (∃ t, exec (.decIr []) State.reset = .next t) ∧
    (tableRow (.encIr 0#8)).format = .pkt ∧ (∃ t, exec (.encIr 0#8) State.reset = .next t) ∧
    (∃ t, exec (.frameEncode []) State.reset = .next t) ∧ (∃ t, exec (.decode [1#8]) State.reset = .next t) ∧
    (∃ t, exec (.encode (.ir 0#8)) State.reset = .next t) ∧ (tableRow .close).format ≠ .rxb ∧
    ∃ t, exec .close State.reset = .next t :=
  ⟨rfl, ⟨_, rfl⟩, rfl, ⟨_, rfl⟩, rfl, ⟨_, rfl⟩, ⟨_, rfl⟩, ⟨_, rfl⟩, ⟨_, rfl⟩, by decide, ⟨_, rfl⟩⟩

/-- EachPortIsDrivenByItsOwnOperations, OperationsDoNotDependOnPastOutputs: one operation that drives each of `TX_BYTE`,
`FRAME_OUT`, `RESULT_OUT` and `ERR_OUT`. -/
theorem witness_Ports :
    (∃ t, exec .txTerm State.reset = .next t ∧ txBytesOf t.trace ≠ txBytesOf State.reset.trace) ∧
    (∃ t, exec (.feed 0xC0#8) (st [1#8] false) = .next t ∧ framesOf t.trace ≠ framesOf (st [1#8] false).trace) ∧
    (∃ t, exec (.decPower [3#8]) State.reset = .next t ∧ resultsOf t.trace ≠ resultsOf State.reset.trace) ∧
    ∃ t, exec .xportErr State.reset = .next t ∧ errorsOf t.trace ≠ errorsOf State.reset.trace :=
  ⟨⟨_, rfl, by decide⟩, ⟨_, rfl, by decide⟩, ⟨_, rfl, by decide⟩, ⟨_, rfl, by decide⟩⟩

/-- EveryOperationCompletesUnderTheDefaultCapacity. -/
theorem witness_DefaultCapacity : State.reset.par.bufCap = none := rfl

end Sys2Proof.Tests
end

section
/-! What the outbound and decode operations do, by table format, and the equations of a step. -/

namespace Sys2Proof.Machine

@[simp] theorem State.emit_nil (s : State) : s.emit [] = s := by simp [State.emit]

/-! ### The operations of one table format -/

/-- 40_frame_codec.md R81 to R84. -/
theorem exec_of_format_txb {i : Instr} (h : (tableRow i).format = .txb) :
    ∃ bs, ∀ s, exec i s = .next (emitTx bs s) := by
  cases i with
  | txEscEnd | txEscEsc | txLit | txTerm => exact ⟨_, fun _ => rfl⟩
  | _ => cases h

/-- 41_packet_decode.md R92 to R109. -/
theorem exec_of_format_tag {i : Instr} (h : (tableRow i).format = .tag) :
    ∃ r, ∀ s, exec i s = .next (emitResult r s) := by
  cases i with
  | decQuat | decAcc | decGyro | decMag | decTemperature | decGpio | decColor | decBlink | decIr | decStream
  | decVersion | decId | decCal | decGpioDdr | decGpioPort | decPower | decUnknown | decEmpty =>
    exact ⟨_, fun _ => rfl⟩
  | _ => cases h

/-- 42_packet_encode_commands.md R120 to R135. -/
theorem exec_of_format_pkt {i : Instr} (h : (tableRow i).format = .pkt) :
    ∃ bs, ∀ s, exec i s = .next (returnBytes bs s) := by
  cases i with
  | encQuat | encAcc | encGyro | encMag | encGpio | encColor | encBlink | encIr | encStream | encVersion | encId
  | encCal | encGpioDdr | encGpioPort | encPower => exact ⟨_, fun _ => rfl⟩
  | _ => cases h

/-! ### Operations that only emit and return -/

/-- The operation completes in every state, and what it emits and returns is fixed by the operation alone, while it
writes nothing else. -/
def OnlyEmitsAndReturns (i : Instr) : Prop := ∃ out r, ∀ s, exec i s = .next ((s.emit out).setRet r)

theorem onlyEmitsAndReturns_of_emitTx {i : Instr} {bs : List Byte} (h : ∀ s, exec i s = .next (emitTx bs s)) :
    OnlyEmitsAndReturns i :=
  ⟨bs.map .txByte, .nothing, h⟩

theorem onlyEmitsAndReturns_of_emitResult {i : Instr} {r : Result} (h : ∀ s, exec i s = .next (emitResult r s)) :
    OnlyEmitsAndReturns i :=
  ⟨[.resultOut r], .result r, h⟩

theorem onlyEmitsAndReturns_of_returnBytes {i : Instr} {bs : List Byte}
    (h : ∀ s, exec i s = .next (returnBytes bs s)) : OnlyEmitsAndReturns i :=
  ⟨[], .bytes bs, fun s => by rw [State.emit_nil]; exact h s⟩

theorem OnlyEmitsAndReturns.ignores_asm {i : Instr} {s t : State} (hi : OnlyEmitsAndReturns i)
    (h : exec i s = .next t) (S : Assembler) :
    t.asm = s.asm ∧ t.inputs = s.inputs ∧ t.reads = s.reads ∧ t.writes = s.writes ∧
      exec i (s.setAsm S) = .next (t.setAsm S) := by
  obtain ⟨out, r, hexec⟩ := hi
  obtain rfl : (s.emit out).setRet r = t := by simpa [hexec] using h
  exact ⟨rfl, rfl, rfl, rfl, hexec (s.setAsm S)⟩

/-- Settles O55: each of these operations only emits and returns what its operands fix. -/
theorem outboundAndDecodeOperationsIgnoreTheAssembler :
    Obligations.OutboundAndDecodeOperationsIgnoreTheAssembler := by
  unfold Obligations.OutboundAndDecodeOperationsIgnoreTheAssembler
  intro i s t S hi h
  suffices hout : OnlyEmitsAndReturns i from hout.ignores_asm h S
  obtain htxb | htag | hpkt | ⟨p, rfl⟩ | ⟨F, rfl⟩ | ⟨p, rfl⟩ := hi
  · obtain ⟨bs, hexec⟩ := exec_of_format_txb htxb
    exact onlyEmitsAndReturns_of_emitTx hexec
  · obtain ⟨r, hexec⟩ := exec_of_format_tag htag
    exact onlyEmitsAndReturns_of_emitResult hexec
  · obtain ⟨bs, hexec⟩ := exec_of_format_pkt hpkt
    exact onlyEmitsAndReturns_of_returnBytes hexec
  · exact onlyEmitsAndReturns_of_returnBytes (bs := frameEncode p) fun _ => rfl
  · exact onlyEmitsAndReturns_of_emitResult (r := decodeFrame F) fun _ => rfl
  · exact onlyEmitsAndReturns_of_returnBytes (bs := encodePacket p) fun _ => rfl

/-! ### The equations of a step -/

theorem step_of_no_input {s : State} (hin : s.inputs = []) : step s = .next s := by
  simp [step, hin]

section OneEvent

variable {s : State} {e : Input} {rest : List Input}

theorem step_of_reject {r : Reject} (hin : s.inputs = e :: rest) (hdec : decodeInput s.asm.escaping e = .error r) :
    step s = .refused (rejectRefusal r) := by
  simp [step, hin, hdec]

theorem step_of_exec_next {i : Instr} {t : State} (hin : s.inputs = e :: rest)
    (hdec : decodeInput s.asm.escaping e = .ok i) (hexec : exec i (s.setInputs rest) = .next t) :
    step s = .next (deliver t) := by
  simp [step, hin, hdec, hexec]

theorem step_of_exec_fault {i : Instr} {r : Fault} (hin : s.inputs = e :: rest)
    (hdec : decodeInput s.asm.escaping e = .ok i) (hexec : exec i (s.setInputs rest) = .fault r) :
    step s = .fault r := by
  simp [step, hin, hdec, hexec]

theorem step_of_exec_refused {i : Instr} {r : Refusal} (hin : s.inputs = e :: rest)
    (hdec : decodeInput s.asm.escaping e = .ok i) (hexec : exec i (s.setInputs rest) = .refused r) :
    step s = .refused r := by
  simp [step, hin, hdec, hexec]

end OneEvent

/-- Settles O48: the equations of a step, with `deliver` read by what the operation returned. -/
theorem stepRunsTheOperationTheEventSelects : Obligations.StepRunsTheOperationTheEventSelects := by
  unfold Obligations.StepRunsTheOperationTheEventSelects
  refine ⟨fun s => step_of_no_input, fun s e rest hin => ⟨fun i hdec => ⟨fun t hexec => ?_, ?_, ?_⟩, ?_⟩⟩
  · rw [step_of_exec_next hin hdec hexec]
    obtain ⟨f, hret, hdel⟩ | ⟨fs, hret, hdel⟩ | ⟨hframe, hframes, hdel⟩ := deliver_cases t
    · simp [hdel, hret, State.emit]
    · simp [hdel, hret, State.emit]
    · rw [hdel]
      split
      · exact absurd ‹_› (hframe _)
      · exact absurd ‹_› (hframes _)
      · simp
  · exact fun r => step_of_exec_fault hin hdec
  · exact fun r => step_of_exec_refused hin hdec
  · rintro (_ | _) hdec <;> exact step_of_reject hin hdec

end Sys2Proof.Machine
end

section
/-! What an operation can do, said once per shape of meaning, and the statements about the state `S` and the ports. -/

namespace Sys2Proof.Machine

/-! ### The assembler operations behind the receive path -/

/-- One assembler operation keeps the buffer within its capacity and delivers no empty frame (10_state.md R12, R23 (e);
43_stream_assembler.md R170). -/
def KeepsBufferForm (A : Option Nat → Assembler → Option (Assembler × Option Frame)) : Prop :=
  ∀ {cap : Option Nat} {S S' : Assembler} {f : Option Frame}, Memory.wf cap S.buf = true → A cap S = some (S', f) →
    Memory.wf cap S'.buf = true ∧ ∀ g ∈ f, g ≠ []

theorem asmUnescape_keepsBufferForm (v : Byte) : KeepsBufferForm fun cap S => asmUnescape cap S v := by
  intro cap S S' f _ h
  simp only [asmUnescape] at h
  split at h
  · next happ =>
    cases h
    have hwf := asmAppend_wf happ
    exact ⟨hwf, by simp⟩
  · cases h

theorem asmEsc_keepsBufferForm : KeepsBufferForm fun _ S => asmEsc S := by
  intro cap S S' f hS h
  cases h
  exact ⟨hS, by simp⟩

theorem asmEnd_keepsBufferForm : KeepsBufferForm fun _ S => asmEnd S := by
  intro cap S S' f hS h
  simp only [asmEnd] at h
  split at h
  · cases h
    exact ⟨hS, by simp⟩
  · cases h
    exact ⟨asmReset_wf cap S, by simp⟩

theorem asmData_keepsBufferForm (b : Byte) : KeepsBufferForm fun cap S => asmData cap S b := by
  intro cap S S' f _ h
  simp only [asmData] at h
  split at h
  · next happ =>
    cases h
    exact ⟨asmAppend_wf happ, by simp⟩
  · cases h

/-! ### The shapes of meaning -/

/-- 43_stream_assembler.md R162 to R167. -/
theorem exec_of_format_rxb {i : Instr} (h : (tableRow i).format = .rxb) :
    ∃ A, KeepsBufferForm A ∧ ∀ s, exec i s = applyFeed (A s.par.bufCap s.asm) s := by
  cases i with
  | rxUnescEnd => exact ⟨_, asmUnescape_keepsBufferForm frameEnd, fun _ => rfl⟩
  | rxUnescEsc => exact ⟨_, asmUnescape_keepsBufferForm escape, fun _ => rfl⟩
  | rxUnescLit b => exact ⟨_, asmUnescape_keepsBufferForm b, fun _ => rfl⟩
  | rxEsc => exact ⟨_, asmEsc_keepsBufferForm, fun _ => rfl⟩
  | rxEnd => exact ⟨_, asmEnd_keepsBufferForm, fun _ => rfl⟩
  | rxData b => exact ⟨_, asmData_keepsBufferForm b, fun _ => rfl⟩
  | _ => cases h

/-- 42_packet_encode_commands.md R142 to R147. -/
theorem exec_of_format_cmd {i : Instr} (h : (tableRow i).format = .cmd) :
    ∃ p, ∀ s, exec i s = .next (transmitPacket p s) := by
  cases i with
  | cmdSetColor | cmdSetStreamingMode | cmdSetCalibration | cmdSetGpioDirection | cmdSetGpioValue | cmdSetPower =>
    exact ⟨_, fun _ => rfl⟩
  | _ => cases h

/-- The meanings of the table's operations: each is one shared operation of the state, with the operations that have
it. -/
inductive Meaning (i : Instr) : Prop
  | feeds (A : Option Nat → Assembler → Option (Assembler × Option Frame))
      (who : (tableRow i).format = .rxb ∨ ∃ b, i = .feed b) (keeps : KeepsBufferForm A)
      (hexec : ∀ s, exec i s = applyFeed (A s.par.bufCap s.asm) s)
  | feedsChunk (c : List Byte) (who : i = .feedChunk c)
  | processesChunk (c : List Byte) (who : i = .processChunk c)
  | polls (who : i = .poll)
  | transmits (p : Packet) (who : (tableRow i).format = .cmd ∨ ∃ p, i = .transmit p)
      (hexec : ∀ s, exec i s = .next (transmitPacket p s))
  | emitsTx (bs : List Byte) (who : (tableRow i).format = .txb) (hexec : ∀ s, exec i s = .next (emitTx bs s))
  | emitsResult (r : Result) (who : (tableRow i).format = .tag ∨ ∃ F, i = .decode F)
      (hexec : ∀ s, exec i s = .next (emitResult r s))
  | returnsBytes (bs : List Byte) (hexec : ∀ s, exec i s = .next (returnBytes bs s))
  | discards (hexec : ∀ s, exec i s = .next (discardAsm s))
  | takesTransportError (who : i = .xportErr)

theorem meaning (i : Instr) : Meaning i := by
  cases hf : (tableRow i).format with
  | rxb =>
    obtain ⟨A, hA, hexec⟩ := exec_of_format_rxb hf
    exact .feeds A (.inl hf) hA hexec
  | txb =>
    obtain ⟨bs, hexec⟩ := exec_of_format_txb hf
    exact .emitsTx bs hf hexec
  | tag =>
    obtain ⟨r, hexec⟩ := exec_of_format_tag hf
    exact .emitsResult r (.inl hf) hexec
  | pkt =>
    obtain ⟨bs, hexec⟩ := exec_of_format_pkt hf
    exact .returnsBytes bs hexec
  | cmd =>
    obtain ⟨p, hexec⟩ := exec_of_format_cmd hf
    exact .transmits p (.inl hf) hexec
  | event =>
    cases i with
    | feed b => exact .feeds (fun cap S => Machine.feed cap S b) (.inr ⟨b, rfl⟩) feed_wf fun _ => rfl
    | feedChunk c => exact .feedsChunk c rfl
    | asmReset | close => exact .discards fun _ => rfl
    | frameEncode p => exact .returnsBytes (frameEncode p) fun _ => rfl
    | decode F => exact .emitsResult (decodeFrame F) (.inr ⟨F, rfl⟩) fun _ => rfl
    | encode p => exact .returnsBytes (encodePacket p) fun _ => rfl
    | transmit p => exact .transmits p (.inr ⟨p, rfl⟩) fun _ => rfl
    | processChunk c => exact .processesChunk c rfl
    | poll => exact .polls rfl
    | xportErr => exact .takesTransportError rfl
    | _ => cases hf

/-! ### What a step can do -/

/-- Everything a step can do: stay where it is with no input, or run one operation and deliver its frames. -/
theorem step_next {s t : State} (h : step s = .next t) :
    (s.inputs = [] ∧ t = s) ∨
    ∃ e rest i u, s.inputs = e :: rest ∧ decodeInput s.asm.escaping e = .ok i ∧
      exec i (s.setInputs rest) = .next u ∧ t = deliver u := by
  cases hin : s.inputs with
  | nil => exact .inl ⟨rfl, by simpa [step_of_no_input hin] using h.symm⟩
  | cons e rest =>
    right
    cases hdec : decodeInput s.asm.escaping e with
    | error r => simp [step_of_reject hin hdec] at h
    | ok i =>
      cases hexec : exec i (s.setInputs rest) with
      | next u => exact ⟨e, rest, i, u, rfl, hdec, hexec, by simpa [step_of_exec_next hin hdec hexec] using h.symm⟩
      | fault r => simp [step_of_exec_fault hin hdec hexec] at h
      | refused r => simp [step_of_exec_refused hin hdec hexec] at h

/-! ### The invariant on the buffer and the delivered frames -/

section BufferInvariant

variable {s t : State}

/-- The invariant from what an operation did to the buffer and what it put on `FRAME_OUT`. -/
theorem State.wf.of_frames {fs : List Frame} (hs : s.wf) (hbuf : Memory.wf t.par.bufCap t.asm.buf = true)
    (htrace : framesOf t.trace = framesOf s.trace ++ fs) (hfs : ∀ f ∈ fs, f ≠ []) : t.wf := by
  obtain ⟨-, hne⟩ := hs
  refine ⟨hbuf, fun f hf => ?_⟩
  rw [htrace, List.mem_append] at hf
  exact hf.elim (hne f) (hfs f)

/-- An operation that leaves `FRAME_OUT` alone needs only keep the buffer's form. -/
theorem State.wf.of_no_frames (hs : s.wf) (hbuf : Memory.wf t.par.bufCap t.asm.buf = true)
    (htrace : framesOf t.trace = framesOf s.trace) : t.wf :=
  hs.of_frames (fs := []) hbuf (by simpa using htrace) (by simp)

theorem takeTransportError_wf (hs : s.wf) : (takeTransportError s).wf :=
  hs.of_no_frames (asmReset_wf _ s.asm) (by simp [takeTransportError_eq])

theorem transmitPacket_wf (p : Packet) (hs : s.wf) : (transmitPacket p s).wf := by
  obtain ⟨-, heq⟩ | ⟨ws, -, heq⟩ := transmitPacket_cases p s <;> rw [heq]
  · exact hs.of_no_frames hs.1 (by simp)
  · exact takeTransportError_wf hs

theorem processChunk_wf {c : List Byte} (hs : s.wf) (h : processChunk c s = .next t) : t.wf := by
  obtain ⟨S, fs, hfeed, rfl⟩ := processChunk_next h
  obtain ⟨hbuf, hfs⟩ := feedChunk_wf hs.1 hfeed
  exact hs.of_frames hbuf (by simp [processOutputs_ports]) hfs

theorem pollOnce_wf (hs : s.wf) (h : pollOnce s = .next t) : t.wf := by
  obtain ⟨c, rest, -, hproc⟩ | ⟨rest, -, rfl⟩ := pollOnce_next h
  · exact processChunk_wf (s := s.setReads rest) hs hproc
  · exact takeTransportError_wf (s := s.setReads rest) hs

theorem deliver_wf (hs : s.wf) : (deliver s).wf := by
  obtain ⟨f, -, heq⟩ | ⟨fs, -, heq⟩ | ⟨-, -, heq⟩ := deliver_cases s <;> rw [heq]
  · exact hs.of_no_frames hs.1 (by simp)
  · exact hs.of_no_frames hs.1 (by simp)
  · exact hs

/-- Every operation keeps the invariant, in or out of its row's context. -/
theorem exec_wf {i : Instr} (hs : s.wf) (h : exec i s = .next t) : t.wf := by
  cases meaning i with
  | feeds A _ keeps hexec =>
    obtain ⟨S, f, hA, rfl⟩ := applyFeed_next (hexec s ▸ h)
    obtain ⟨hbuf, hf⟩ := keeps hs.1 hA
    exact hs.of_frames (fs := f.toList) hbuf (by simp) (by simpa using hf)
  | feedsChunk c who =>
    subst who
    obtain ⟨S, fs, hfeed, rfl⟩ := applyFeedChunk_next h
    obtain ⟨hbuf, hfs⟩ := feedChunk_wf hs.1 hfeed
    exact hs.of_frames hbuf (by simp) hfs
  | processesChunk c who => subst who; exact processChunk_wf hs h
  | polls who => subst who; exact pollOnce_wf hs h
  | transmits p _ hexec => cases (hexec s).symm.trans h; exact transmitPacket_wf p hs
  | emitsTx bs _ hexec => cases (hexec s).symm.trans h; exact hs.of_no_frames hs.1 (by simp [emitTx_eq])
  | emitsResult r _ hexec => cases (hexec s).symm.trans h; exact hs.of_no_frames hs.1 (by simp [emitResult_eq])
  | returnsBytes bs hexec => cases (hexec s).symm.trans h; exact hs
  | discards hexec => cases (hexec s).symm.trans h; exact hs.of_no_frames (asmReset_wf _ s.asm) rfl
  | takesTransportError who => subst who; cases h; exact takeTransportError_wf hs

end BufferInvariant

/-- Settles O52: the operation keeps the invariant, and delivering its frames adds no frame. -/
theorem everyStepKeepsTheBufferWithinCapacityAndFramesNonEmpty :
    Obligations.EveryStepKeepsTheBufferWithinCapacityAndFramesNonEmpty := by
  unfold Obligations.EveryStepKeepsTheBufferWithinCapacityAndFramesNonEmpty
  intro s t hs h
  obtain ⟨-, rfl⟩ | ⟨e, rest, i, u, -, -, hexec, rfl⟩ := step_next h
  · exact hs
  · exact deliver_wf (exec_wf (s := s.setInputs rest) hs hexec)

/-! ### What one received byte does to the assembler -/

/-- Settles O11: the five branches of FEED, of which only the escape byte sets the flag and only a terminator clears the
buffer. -/
theorem oneByteGrowsOrClearsTheBufferAndTheFlagLastsOneByte :
    Obligations.OneByteGrowsOrClearsTheBufferAndTheFlagLastsOneByte := by
  unfold Obligations.OneByteGrowsOrClearsTheBufferAndTheFlagLastsOneByte
  intro s t b h
  obtain ⟨S, r, hfeed, rfl⟩ := applyFeed_next h
  obtain ⟨hesc, -, rfl, -⟩ | ⟨hesc, rfl, rfl, -⟩ | ⟨hesc, rfl, -, rfl, -⟩ | ⟨hesc, rfl, -, rfl, -⟩ |
    ⟨hesc, hb, -, -, rfl, -⟩ := feed_cases hfeed
  · simp +contextual [hesc, List.getElem?_append_left]
  · simp [hesc, escape]
  · simp [hesc, frameEnd]
  · simp [hesc, frameEnd]
  · have hb' : b ≠ 0xDB#8 := hb
    simp +contextual [hesc, hb', List.getElem?_append_left]

/-! ### What the other operations do to the assembler -/

theorem transmitPacket_asm (p : Packet) (s : State) :
    (transmitPacket p s).asm = s.asm ∨ (transmitPacket p s).asm = Assembler.reset := by
  obtain ⟨-, heq⟩ | ⟨ws, -, heq⟩ := transmitPacket_cases p s <;> rw [heq]
  · exact .inl rfl
  · exact .inr rfl

/-- Settles O56: outside the receive path a meaning only emits, returns, or discards the assembler. -/
theorem onlyTheReceivePathSetsTheFlag : Obligations.OnlyTheReceivePathSetsTheFlag := by
  unfold Obligations.OnlyTheReceivePathSetsTheFlag
  rintro i s t h ⟨hrxb, hfeed, hfeedChunk, hprocessChunk, hpoll⟩
  cases meaning i with
  | feeds A who =>
    obtain hf | ⟨b, rfl⟩ := who
    · exact absurd hf hrxb
    · exact absurd rfl (hfeed b)
  | feedsChunk c who => exact absurd who (hfeedChunk c)
  | processesChunk c who => exact absurd who (hprocessChunk c)
  | polls who => exact absurd who hpoll
  | transmits p _ hexec => cases (hexec s).symm.trans h; exact transmitPacket_asm p s
  | emitsTx bs _ hexec => cases (hexec s).symm.trans h; exact .inl rfl
  | emitsResult r _ hexec => cases (hexec s).symm.trans h; exact .inl rfl
  | returnsBytes bs hexec => cases (hexec s).symm.trans h; exact .inl rfl
  | discards hexec => cases (hexec s).symm.trans h; exact .inr rfl
  | takesTransportError who => subst who; cases h; exact .inr rfl

/-! ### Which ports an operation drives -/

/-- Settles O57: each meaning leaves the ports of the others as they are. -/
theorem eachPortIsDrivenByItsOwnOperations : Obligations.EachPortIsDrivenByItsOwnOperations := by
  unfold Obligations.EachPortIsDrivenByItsOwnOperations
  intro i s t h
  cases meaning i with
  | feeds A who _ hexec =>
    obtain ⟨S, f, -, rfl⟩ := applyFeed_next (hexec s ▸ h)
    obtain hf | ⟨b, rfl⟩ := who
    · simp [hf]
    · simp
  | feedsChunk c who =>
    subst who
    obtain ⟨S, fs, -, rfl⟩ := applyFeedChunk_next h
    simp
  | processesChunk c who =>
    subst who
    obtain ⟨S, fs, -, rfl⟩ := processChunk_next h
    simp [processOutputs_ports]
  | polls who =>
    subst who
    obtain ⟨c, rest, -, hproc⟩ | ⟨rest, -, rfl⟩ := pollOnce_next h
    · obtain ⟨S, fs, -, rfl⟩ := processChunk_next hproc
      simp [processOutputs_ports]
    · simp [takeTransportError_eq]
  | transmits p who hexec =>
    cases (hexec s).symm.trans h
    have hwho : (tableRow i).format = .cmd ∨ (∃ p, i = .transmit p) ∨ i = .poll ∨ i = .xportErr :=
      who.imp_right .inl
    obtain ⟨-, heq⟩ | ⟨ws, -, heq⟩ := transmitPacket_cases p s
    · simp [heq, who]
    · simp [heq, takeTransportError_eq, hwho]
  | emitsTx bs who hexec => cases (hexec s).symm.trans h; simp [emitTx_eq, who]
  | emitsResult r who hexec =>
    cases (hexec s).symm.trans h
    obtain hf | ⟨F, rfl⟩ := who
    · simp [emitResult_eq, hf]
    · simp [emitResult_eq]
  | returnsBytes bs hexec => cases (hexec s).symm.trans h; simp [returnBytes_eq]
  | discards hexec => cases (hexec s).symm.trans h; simp [discardAsm_eq]
  | takesTransportError who => subst who; cases h; simp [takeTransportError_eq]

/-! ### Past outputs -/

/-- `s` with another history: other outputs emitted, another value returned. -/
def State.withPast (s : State) (tr : List Output) (r : Ret) : State := { s with trace := tr, ret := r }

/-- An operation that only adds output events, the same ones whatever was emitted or returned before (10_state.md R19,
R22 (e)). -/
def IgnoresPast (f : State → Host.Outcome State Fault Refusal) : Prop :=
  ∀ {s t : State} (tr : List Output) (r : Ret), f s = .next t →
    ∃ out, t.trace = s.trace ++ out ∧ f (s.withPast tr r) = .next { t with trace := tr ++ out }

theorem applyFeed_ignoresPast (A : Option Nat → Assembler → Option (Assembler × Option Frame)) :
    IgnoresPast fun s => applyFeed (A s.par.bufCap s.asm) s := by
  intro s t tr r h
  obtain ⟨S, f, hA, rfl⟩ := applyFeed_next h
  refine ⟨f.toList.map .frameOut, rfl, ?_⟩
  simp only [State.withPast, hA]
  rfl

theorem applyFeedChunk_ignoresPast (c : List Byte) : IgnoresPast (applyFeedChunk c) := by
  intro s t tr r h
  obtain ⟨S, fs, hfeed, rfl⟩ := applyFeedChunk_next h
  refine ⟨fs.map .frameOut, rfl, ?_⟩
  simp only [applyFeedChunk, State.withPast, hfeed]
  rfl

theorem processChunk_ignoresPast (c : List Byte) : IgnoresPast (processChunk c) := by
  intro s t tr r h
  obtain ⟨S, fs, hfeed, rfl⟩ := processChunk_next h
  refine ⟨fs.flatMap fun f => [.frameOut f, .resultOut (decodeFrame f)], rfl, ?_⟩
  simp only [processChunk, State.withPast, hfeed]
  rfl

theorem pollOnce_ignoresPast : IgnoresPast pollOnce := by
  intro s t tr r h
  obtain ⟨c, rest, hread, hproc⟩ | ⟨rest, hread, rfl⟩ := pollOnce_next h
  · obtain ⟨out, htrace, hpast⟩ := processChunk_ignoresPast c tr r hproc
    refine ⟨out, htrace, ?_⟩
    simp only [pollOnce, State.withPast, hread]
    exact hpast
  · refine ⟨[.errOut .transportError], rfl, ?_⟩
    simp only [pollOnce, State.withPast, hread]
    rfl

theorem transmitPacket_ignoresPast (p : Packet) : IgnoresPast fun s => .next (transmitPacket p s) := by
  rintro ⟨asm, inputs, reads, writes, trace, ret, par⟩ t tr r h
  cases h
  match writes with
  | [] => exact ⟨_, rfl, rfl⟩
  | .accepted :: ws => exact ⟨_, rfl, rfl⟩
  | .failed :: ws => exact ⟨_, rfl, rfl⟩

theorem OnlyEmitsAndReturns.ignoresPast {i : Instr} (hi : OnlyEmitsAndReturns i) : IgnoresPast (exec i) := by
  obtain ⟨out, q, hexec⟩ := hi
  intro s t tr r h
  cases (hexec s).symm.trans h
  exact ⟨out, rfl, hexec _⟩

theorem takeTransportError_ignoresPast : IgnoresPast fun s => .next (takeTransportError s) := by
  intro s t tr r h
  cases h
  exact ⟨_, rfl, rfl⟩

theorem discardAsm_ignoresPast : IgnoresPast fun s => .next (discardAsm s) := by
  intro s t tr r h
  cases h
  exact ⟨[], by simp [discardAsm_eq], by simp [discardAsm_eq, State.withPast]⟩

theorem exec_ignoresPast (i : Instr) : IgnoresPast (exec i) := by
  cases meaning i with
  | feeds A _ _ hexec => rw [funext hexec]; exact applyFeed_ignoresPast A
  | feedsChunk c who => subst who; exact applyFeedChunk_ignoresPast c
  | processesChunk c who => subst who; exact processChunk_ignoresPast c
  | polls who => subst who; exact pollOnce_ignoresPast
  | transmits p _ hexec => rw [funext hexec]; exact transmitPacket_ignoresPast p
  | emitsTx bs _ hexec => exact (onlyEmitsAndReturns_of_emitTx hexec).ignoresPast
  | emitsResult r _ hexec => exact (onlyEmitsAndReturns_of_emitResult hexec).ignoresPast
  | returnsBytes bs hexec => exact (onlyEmitsAndReturns_of_returnBytes hexec).ignoresPast
  | discards hexec => rw [funext hexec]; exact discardAsm_ignoresPast
  | takesTransportError who => subst who; exact takeTransportError_ignoresPast

/-- Settles O58: each shared operation appends outputs that the history does not enter. -/
theorem operationsDoNotDependOnPastOutputs : Obligations.OperationsDoNotDependOnPastOutputs := by
  unfold Obligations.OperationsDoNotDependOnPastOutputs
  intro i s t tr r h
  exact exec_ignoresPast i tr r h

/-! ### Reset -/

/-- Settles O1: the values are the reset state's own, and it waits for no input. -/
theorem resetGivesTheEmptyNormalAssembler : Obligations.ResetGivesTheEmptyNormalAssembler := by
  unfold Obligations.ResetGivesTheEmptyNormalAssembler
  exact ⟨rfl, rfl, rfl, rfl, rfl, step_of_no_input rfl⟩

theorem reset_wf : State.reset.wf := ⟨reset_buf_wf, by simp [State.reset]⟩

/-- The reset state has emitted neither frames nor results, so only the waiting events matter. -/
theorem reset_setInputs_pipelineInv {es : List Input} (hes : ∀ e ∈ es, e.bypassesAssembler = false) :
    (State.reset.setInputs es).pipelineInv :=
  ⟨hes, rfl⟩

/-- Settles O54: waiting events enter neither the buffer nor the trace. -/
theorem resetMeetsTheInvariants : Obligations.ResetMeetsTheInvariants := by
  unfold Obligations.ResetMeetsTheInvariants
  exact ⟨reset_wf, reset_setInputs_pipelineInv (es := []) (by simp), fun es hes =>
    ⟨reset_wf, reset_setInputs_pipelineInv hes⟩⟩

end Sys2Proof.Machine
end

section
/-! What a step consumes and keeps, and the integer an `s16` pattern stands for. -/

namespace Sys2Proof.Machine

/-! ### Inputs, parameters and the growing trace -/

section Keeps

variable {s t : State} {i : Instr}

/-- 10_state.md R22 (d): what an operation adds to the trace is independent of the past, so the past stays. -/
theorem exec_trace_prefix (h : exec i s = .next t) : s.trace <+: t.trace := by
  obtain ⟨out, htrace, -⟩ := exec_ignoresPast i s.trace s.ret h
  exact ⟨out, htrace.symm⟩

theorem processChunk_inputs_par {c : List Byte} (h : processChunk c s = .next t) :
    t.inputs = s.inputs ∧ t.par = s.par := by
  obtain ⟨S, fs, -, rfl⟩ := processChunk_next h
  exact ⟨rfl, rfl⟩

theorem transmitPacket_inputs_par (p : Packet) (s : State) :
    (transmitPacket p s).inputs = s.inputs ∧ (transmitPacket p s).par = s.par := by
  obtain ⟨-, heq⟩ | ⟨ws, -, heq⟩ := transmitPacket_cases p s <;> rw [heq] <;> exact ⟨rfl, rfl⟩

/-- No operation consumes a further event or writes a parameter (20_memory.md R42; 00_scope.md R8). -/
theorem exec_inputs_par (h : exec i s = .next t) : t.inputs = s.inputs ∧ t.par = s.par := by
  cases meaning i with
  | feeds A _ _ hexec =>
    obtain ⟨S, f, -, rfl⟩ := applyFeed_next (hexec s ▸ h)
    exact ⟨rfl, rfl⟩
  | feedsChunk c who =>
    subst who
    obtain ⟨S, fs, -, rfl⟩ := applyFeedChunk_next h
    exact ⟨rfl, rfl⟩
  | processesChunk c who => subst who; exact processChunk_inputs_par h
  | polls who =>
    subst who
    obtain ⟨c, rest, -, hproc⟩ | ⟨rest, -, rfl⟩ := pollOnce_next h
    · exact processChunk_inputs_par (s := s.setReads rest) hproc
    · exact ⟨rfl, rfl⟩
  | transmits p _ hexec => cases (hexec s).symm.trans h; exact transmitPacket_inputs_par p s
  | emitsTx bs _ hexec => cases (hexec s).symm.trans h; exact ⟨rfl, rfl⟩
  | emitsResult r _ hexec => cases (hexec s).symm.trans h; exact ⟨rfl, rfl⟩
  | returnsBytes bs hexec => cases (hexec s).symm.trans h; exact ⟨rfl, rfl⟩
  | discards hexec => cases (hexec s).symm.trans h; exact ⟨rfl, rfl⟩
  | takesTransportError who => subst who; cases h; exact ⟨rfl, rfl⟩

/-- Delivering the frames of an operation only emits. -/
theorem deliver_eq_emit (s : State) : ∃ out, deliver s = s.emit out := by
  obtain ⟨f, -, heq⟩ | ⟨fs, -, heq⟩ | ⟨-, -, heq⟩ := deliver_cases s
  · exact ⟨_, heq⟩
  · exact ⟨_, heq⟩
  · exact ⟨[], by rw [heq, State.emit_nil]⟩

end Keeps

/-- Settles O59: the step takes the event off, its operation keeps inputs, parameters and past outputs, and delivering
its frames only emits. -/
theorem everyStepConsumesOneEventAndOnlyAddsOutputs : Obligations.EveryStepConsumesOneEventAndOnlyAddsOutputs := by
  unfold Obligations.EveryStepConsumesOneEventAndOnlyAddsOutputs
  intro s t h
  obtain ⟨hin, rfl⟩ | ⟨e, rest, i, u, hin, -, hexec, rfl⟩ := step_next h
  · exact ⟨by simp [hin], rfl, List.prefix_refl _⟩
  · obtain ⟨hinputs, hpar⟩ := exec_inputs_par hexec
    have htrace : s.trace <+: u.trace := exec_trace_prefix (s := s.setInputs rest) hexec
    obtain ⟨out, hdel⟩ := deliver_eq_emit u
    rw [hdel]
    exact ⟨by simp [hinputs, hin], hpar, htrace.trans (List.prefix_append _ _)⟩

/-! ### Signed 16-bit fields -/

/-- The model's presumption (log entry 9) in the library's terms: `sext16` is the two's-complement reading. -/
theorem sext16_eq_toInt (p : S16) : sext16 p = p.toInt := by
  rw [sext16, BitVec.toInt_eq_toNat_cond]
  split <;> split <;> omega

theorem sext16_trunc16 {i : Int} (hlo : -32768 ≤ i) (hhi : i ≤ 32767) : sext16 (trunc16 i) = i := by
  rw [sext16_eq_toInt, trunc16]
  exact BitVec.toInt_ofInt_eq_self (by decide) (by omega) (by omega)

@[simp] theorem trunc16_sext16 (p : S16) : trunc16 (sext16 p) = p := by
  rw [sext16_eq_toInt, trunc16, BitVec.ofInt_toInt]

/-- Settles O23: the weights and inverses of `be16` and `be32`, and `sext16` as the two's-complement reading. -/
theorem fieldsAreBigEndianAndSigned16IsTwosComplement :
    Obligations.FieldsAreBigEndianAndSigned16IsTwosComplement := by
  unfold Obligations.FieldsAreBigEndianAndSigned16IsTwosComplement
  exact ⟨be16_toNat, be32_toNat, fun v => ⟨_, _, rfl, be16_bytes v⟩, fun v => ⟨_, _, _, _, rfl, be32_bytes v⟩,
    fun _ => rfl, fun _ => sext16_trunc16, trunc16_sext16⟩

end Sys2Proof.Machine
end

section
/-! The decoder and the encoder of the table's words: each undoes the other (30_encoding.md R55, R59 to R63, R72, R73). -/

namespace Sys2Proof.Machine

/-! ### The inbound and outbound byte-class maps -/

/-- 30_encoding.md R61: FEED tests the flag and the byte as the byte-class map does. -/
theorem exec_feed_eq_exec_decodeRx (b : Byte) (s : State) :
    exec (.feed b) s = exec (decodeRx s.asm.escaping b) s := by
  change applyFeed (feed s.par.bufCap s.asm b) s = _
  unfold feed decodeRx
  split_ifs <;> rfl

/-- Settles O9: the row is the byte-class map's value. -/
theorem feedRunsTheRowTheByteClassMapSelects : Obligations.FeedRunsTheRowTheByteClassMapSelects := by
  unfold Obligations.FeedRunsTheRowTheByteClassMapSelects
  exact fun s b => ⟨decodeRx s.asm.escaping b, rfl, exec_feed_eq_exec_decodeRx b s, rfl⟩

theorem rxUnescLit_wellFormed {b : Byte} :
    (Instr.rxUnescLit b).wellFormed = true ↔ b ≠ escapedEnd ∧ b ≠ escapedEscape := by
  simp [Instr.wellFormed, escapedEnd, escapedEscape]

theorem rxData_wellFormed {b : Byte} : (Instr.rxData b).wellFormed = true ↔ b ≠ escape ∧ b ≠ frameEnd := by
  simp [Instr.wellFormed, escape, frameEnd]

theorem txLit_wellFormed {b : Byte} : (Instr.txLit b).wellFormed = true ↔ b ≠ frameEnd ∧ b ≠ escape := by
  simp [Instr.wellFormed, escape, frameEnd]

theorem decUnknown_wellFormed {tag : Byte} {payload : List Byte} :
    (Instr.decUnknown tag payload).wellFormed = true ↔ 16 ≤ tag.toNat := by
  simp [Instr.wellFormed]

/-- An operation that is well formed, admits this value of the flag, and is written as this event (30_encoding.md
R73). -/
def Presents (escaping : Bool) (e : Input) (i : Instr) : Prop :=
  i.wellFormed = true ∧ (∀ c, i.context = some c → escaping = c) ∧ encodeInput i = e

/-- A row without context admits every value of the flag. -/
theorem presents_of_no_context {i : Instr} {e : Input} (escaping : Bool) (hwf : i.wellFormed = true)
    (hctx : i.context = none) (he : encodeInput i = e) : Presents escaping e i :=
  ⟨hwf, by simp [hctx], he⟩

theorem decodeRx_presents (escaping : Bool) (b : Byte) : Presents escaping (.rxByte b) (decodeRx escaping b) := by
  unfold decodeRx
  split_ifs with hesc hend hescape hescape hend
  · subst hend; exact ⟨rfl, by simp [Instr.context, hesc], rfl⟩
  · subst hescape; exact ⟨rfl, by simp [Instr.context, hesc], rfl⟩
  · exact ⟨rxUnescLit_wellFormed.mpr ⟨hend, hescape⟩, by simp [Instr.context, hesc], rfl⟩
  · subst hescape; exact ⟨rfl, by simp [Instr.context, hesc], rfl⟩
  · subst hend; exact ⟨rfl, by simp [Instr.context, hesc], rfl⟩
  · exact ⟨rxData_wellFormed.mpr ⟨hescape, hend⟩, by simp [Instr.context, hesc], rfl⟩

theorem decodeTx_presents (escaping : Bool) (b : Byte) : Presents escaping (.txByte b) (decodeTx b) := by
  unfold decodeTx
  split_ifs with hend hescape
  · subst hend; exact presents_of_no_context escaping rfl rfl rfl
  · subst hescape; exact presents_of_no_context escaping rfl rfl rfl
  · exact presents_of_no_context escaping (txLit_wellFormed.mpr ⟨hend, hescape⟩) rfl rfl

/-- 30_encoding.md R61, from the row to the byte and back. -/
theorem decodeInput_encodeInput_of_format_rxb {i : Instr} {escaping : Bool} (h : (tableRow i).format = .rxb)
    (hwf : i.wellFormed = true) (hctx : ∀ c, i.context = some c → escaping = c) :
    decodeInput escaping (encodeInput i) = .ok i := by
  cases i with
  | rxUnescEnd | rxUnescEsc => obtain rfl := hctx true rfl; rfl
  | rxEsc | rxEnd => obtain rfl := hctx false rfl; rfl
  | rxUnescLit b =>
    obtain rfl := hctx true rfl
    obtain ⟨hend, hescape⟩ := rxUnescLit_wellFormed.mp hwf
    simp [encodeInput, decodeInput, decodeRx, hend, hescape]
  | rxData b =>
    obtain rfl := hctx false rfl
    obtain ⟨hescape, hend⟩ := rxData_wellFormed.mp hwf
    simp [encodeInput, decodeInput, decodeRx, hend, hescape]
  | _ => cases h

/-- 30_encoding.md R62, from the row to the byte and back. -/
theorem decodeInput_encodeInput_of_format_txb {i : Instr} (escaping : Bool) (h : (tableRow i).format = .txb)
    (hwf : i.wellFormed = true) : decodeInput escaping (encodeInput i) = .ok i := by
  cases i with
  | txEscEnd | txEscEsc | txTerm => rfl
  | txLit b =>
    obtain ⟨hend, hescape⟩ := txLit_wellFormed.mp hwf
    simp [encodeInput, decodeInput, decodeTx, hend, hescape]
  | _ => cases h

/-! ### The tag map -/

/-- A tag byte is one of the enumeration's sixteen or lies outside it (30_encoding.md R53). -/
theorem tag_cases (tag : Byte) : (∃ k : Fin 16, tag = BitVec.ofNat 8 k) ∨ 16 ≤ tag.toNat := by
  obtain h | h := Nat.lt_or_ge tag.toNat 16
  · exact .inl ⟨⟨tag.toNat, h⟩, by simp⟩
  · exact .inr h

theorem decodeTag_of_le {tag : Byte} (h : 16 ≤ tag.toNat) (payload : List Byte) :
    decodeTag (tag :: payload) = .decUnknown tag payload := by
  obtain ⟨k, hk⟩ := Nat.exists_eq_add_of_le' h
  simp [decodeTag, hk]

theorem decodeFrame_of_le {tag : Byte} (h : 16 ≤ tag.toNat) (payload : List Byte) :
    decodeFrame (tag :: payload) = .err .unknownType := by
  obtain ⟨k, hk⟩ := Nat.exists_eq_add_of_le' h
  simp [decodeFrame, parseUnknown, hk]

/-- Settles O24: the sixteen tags of the enumeration, each by computation, and every other byte. -/
theorem theTagSelectsTheRowByAllEightBits : Obligations.TheTagSelectsTheRowByAllEightBits := by
  unfold Obligations.TheTagSelectsTheRowByAllEightBits
  refine fun escaping tag payload => ⟨rfl, ?_⟩
  obtain ⟨k, rfl⟩ | h := tag_cases tag
  · fin_cases k <;> rfl
  · have hne : ∀ k < 16, tag ≠ BitVec.ofNat 8 k := by
      rintro k hk rfl
      rw [BitVec.toNat_ofNat] at h
      omega
    simp [decodeInput, decodeTag_of_le h, hne]

theorem decodeTag_presents (escaping : Bool) (f : Frame) : Presents escaping (.frame f) (decodeTag f) := by
  cases f with
  | nil => exact presents_of_no_context escaping rfl rfl rfl
  | cons tag payload =>
    obtain ⟨k, rfl⟩ | h := tag_cases tag
    · fin_cases k <;> exact presents_of_no_context escaping rfl rfl rfl
    · rw [decodeTag_of_le h]
      exact presents_of_no_context escaping (decUnknown_wellFormed.mpr h) rfl rfl

/-- 30_encoding.md R63, from the row to the frame and back. -/
theorem decodeInput_encodeInput_of_format_tag {i : Instr} (escaping : Bool) (h : (tableRow i).format = .tag)
    (hwf : i.wellFormed = true) : decodeInput escaping (encodeInput i) = .ok i := by
  cases i with
  | decQuat | decAcc | decGyro | decMag | decTemperature | decGpio | decColor | decBlink | decIr | decStream
  | decVersion | decId | decCal | decGpioDdr | decGpioPort | decPower | decEmpty => rfl
  | decUnknown tag payload =>
    exact congrArg Except.ok (decodeTag_of_le (decUnknown_wellFormed.mp hwf) payload)
  | _ => cases h

/-! ### `decode` and `encode` are inverse -/

/-- 42_packet_encode_commands.md R137: `decode` undoes `encode`. -/
@[simp] theorem decodeFrame_encodePacket (p : Packet) : decodeFrame (encodePacket p) = .ok p := by
  cases p with
  | quat => simp [encodePacket, frameQuat, bytesBE32, decodeFrame, parseQuat, memRead32, memRead8]
  | acc => simp [encodePacket, frameAcc, bytesBE16, decodeFrame, parseAcc, memRead16, memRead8]
  | gyro => simp [encodePacket, frameGyro, bytesBE16, decodeFrame, parseGyro, memRead16, memRead8]
  | mag => simp [encodePacket, frameMag, bytesBE16, decodeFrame, parseMag, memRead16, memRead8]
  | version => simp [encodePacket, frameVersion, bytesBE32, decodeFrame, parseVersion, memRead32, memRead8]
  | id => simp [encodePacket, frameId, bytesBE32, decodeFrame, parseId, memRead32, memRead8]
  | cal => simp [encodePacket, frameCal, bytesBE32, decodeFrame, parseCal, memRead32, memRead8]
  | gpio | color | blink | ir | stream | gpioDdr | gpioPort | power => rfl

theorem bytesBE16_memRead16 (F : Frame) (off : Nat) :
    bytesBE16 (memRead16 F off) = [memRead8 F off, memRead8 F (off + 1)] :=
  bytes_be16 _ _

theorem bytesBE32_memRead32 (F : Frame) (off : Nat) :
    bytesBE32 (memRead32 F off) = [memRead8 F off, memRead8 F (off + 1), memRead8 F (off + 2), memRead8 F (off + 3)] :=
  bytes_be32 _ _ _ _

theorem map_memRead8_range {F : Frame} {n : Nat} (h : F.length = n) : (List.range n).map (memRead8 F) = F := by
  subst h
  exact List.ext_getElem (by simp) fun k _ hk => by simp [memRead8, hk]

/-- A parser that tests the length and then reads every byte of the frame once, in order, loses none of them. -/
theorem encodePacket_of_length_test {F : Frame} {n : Nat} {p q : Packet}
    (hq : encodePacket q = (List.range n).map (memRead8 F))
    (h : (if F.length ≠ n then .err .sizeMismatch else .ok q) = Result.ok p) : encodePacket p = F := by
  split_ifs at h with hlen
  cases h
  rw [hq, map_memRead8_range (not_not.mp hlen)]

/-- 42_packet_encode_commands.md R137: `encode` undoes `decode` where it answers a packet. -/
theorem encodePacket_of_decodeFrame {F : Frame} {p : Packet} (h : decodeFrame F = .ok p) : encodePacket p = F := by
  cases F with
  | nil => cases h
  | cons tag payload =>
    obtain ⟨k, rfl⟩ | htag := tag_cases tag
    · fin_cases k
      -- TEMPERATURE, tag 4, has no layout (41_packet_decode.md R97).
      pick_goal 5
      · cases h
      all_goals
        refine encodePacket_of_length_test ?_ h
        simp only [encodePacket, frameQuat, frameAcc, frameGyro, frameMag, frameGpio, frameColor, frameBlink, frameIr,
          frameStream, frameVersion, frameId, frameCal, frameGpioDdr, frameGpioPort, framePower, bytesBE16_memRead16,
          bytesBE32_memRead32]
        rfl
    · rw [decodeFrame_of_le htag] at h
      cases h

theorem encodePacket_ne_nil (p : Packet) : encodePacket p ≠ [] := by
  cases p <;> exact List.cons_ne_nil _ _

/-! ### The PKT and CMD words -/

theorem decodePkt_encodePacket (p : Packet) : decodePkt (encodePacket p) = .ok (encRow p) := by
  obtain ⟨tag, payload, hw⟩ := List.exists_cons_of_ne_nil (encodePacket_ne_nil p)
  have hp := decodeFrame_encodePacket p
  rw [hw] at hp ⊢
  simp [decodePkt, hp]

theorem decodeCmd_encodePacket (p : Packet) : decodeCmd (encodePacket p) = cmdRow p := by
  obtain ⟨tag, payload, hw⟩ := List.exists_cons_of_ne_nil (encodePacket_ne_nil p)
  have hp := decodeFrame_encodePacket p
  rw [hw] at hp ⊢
  simp [decodeCmd, hp]

/-- A PKT word that has a row is a packet's frame (30_encoding.md R55, R73). -/
theorem decodePkt_ok {w : Frame} {i : Instr} (h : decodePkt w = .ok i) : ∃ p, w = encodePacket p ∧ i = encRow p := by
  unfold decodePkt at h
  split at h
  · cases h
  · split at h
    · next p hp => cases h; exact ⟨p, (encodePacket_of_decodeFrame hp).symm, rfl⟩
    · cases h

/-- A CMD word that has a row is the frame of a packet that a command builds (30_encoding.md R72, R73). -/
theorem decodeCmd_ok {w : Frame} {i : Instr} (h : decodeCmd w = .ok i) :
    ∃ p, w = encodePacket p ∧ cmdRow p = .ok i := by
  unfold decodeCmd at h
  split at h
  · cases h
  · split at h
    · next p hp => exact ⟨p, (encodePacket_of_decodeFrame hp).symm, h⟩
    · cases h

theorem encRow_presents (escaping : Bool) (p : Packet) : Presents escaping (.packet (encodePacket p)) (encRow p) := by
  cases p <;> exact presents_of_no_context escaping rfl rfl rfl

theorem exists_encRow_of_format_pkt {i : Instr} (h : (tableRow i).format = .pkt) : ∃ p, i = encRow p := by
  cases i with
  | encQuat q0 q1 q2 q3 => exact ⟨.quat q0 q1 q2 q3, rfl⟩
  | encAcc v0 v1 v2 => exact ⟨.acc v0 v1 v2, rfl⟩
  | encGyro v0 v1 v2 => exact ⟨.gyro v0 v1 v2, rfl⟩
  | encMag v0 v1 v2 => exact ⟨.mag v0 v1 v2, rfl⟩
  | encGpio v => exact ⟨.gpio v, rfl⟩
  | encColor r g b => exact ⟨.color r g b, rfl⟩
  | encBlink b0 b1 b2 => exact ⟨.blink b0 b1 b2, rfl⟩
  | encIr v => exact ⟨.ir v, rfl⟩
  | encStream mask => exact ⟨.stream mask, rfl⟩
  | encVersion v => exact ⟨.version v, rfl⟩
  | encId v => exact ⟨.id v, rfl⟩
  | encCal ox oy oz sx sy sz => exact ⟨.cal ox oy oz sx sy sz, rfl⟩
  | encGpioDdr mask => exact ⟨.gpioDdr mask, rfl⟩
  | encGpioPort mask => exact ⟨.gpioPort mask, rfl⟩
  | encPower level => exact ⟨.power level, rfl⟩
  | _ => cases h

/-- 30_encoding.md R55, R73, from the PKT row to the word and back. -/
theorem decodeInput_encodeInput_of_format_pkt {i : Instr} (escaping : Bool) (h : (tableRow i).format = .pkt) :
    decodeInput escaping (encodeInput i) = .ok i := by
  obtain ⟨p, rfl⟩ := exists_encRow_of_format_pkt h
  obtain ⟨-, -, hw⟩ := encRow_presents escaping p
  rw [hw]
  exact decodePkt_encodePacket p

/-! ### The mask bytes -/

@[simp] theorem flagBit_false (bit : Nat) : flagBit false bit = 0#8 := rfl

theorem flagBit_getLsbD {flag : Bool} {bit k : Nat} (hk : k < 8) :
    (flagBit flag bit).getLsbD k = (flag && decide (bit = k)) := by
  cases flag
  · simp
  · simp only [flagBit, if_true, BitVec.getLsbD_ofNat, Nat.testBit_two_pow, hk, decide_true, Bool.true_and]

/-- A byte is made of its eight bits. -/
theorem or_flagBit_getLsbD (m : Byte) :
    flagBit (m.getLsbD 0) 0 ||| flagBit (m.getLsbD 1) 1 ||| flagBit (m.getLsbD 2) 2 ||| flagBit (m.getLsbD 3) 3 |||
      flagBit (m.getLsbD 4) 4 ||| flagBit (m.getLsbD 5) 5 ||| flagBit (m.getLsbD 6) 6 ||| flagBit (m.getLsbD 7) 7 =
    m := by
  apply BitVec.eq_of_getLsbD_eq
  intro k hk
  simp only [BitVec.getLsbD_or, flagBit_getLsbD hk]
  interval_cases k <;> simp

/-- 30_encoding.md R59: a mask without bits 6 and 7 is the streaming mask of its flags. -/
theorem streamMask_getLsbD {m : Byte} (h : m &&& 0xC0#8 = 0#8) :
    streamMask (m.getLsbD 0) (m.getLsbD 1) (m.getLsbD 2) (m.getLsbD 3) (m.getLsbD 4) (m.getLsbD 5) = m := by
  have h6 : m.getLsbD 6 = false := by simpa using congrArg (BitVec.getLsbD · 6) h
  have h7 : m.getLsbD 7 = false := by simpa using congrArg (BitVec.getLsbD · 7) h
  have hm := or_flagBit_getLsbD m
  rwa [h6, h7, flagBit_false, flagBit_false, BitVec.or_zero, BitVec.or_zero] at hm

/-- 30_encoding.md R60: a mask without bits 2 and 3 is the GPIO mask of its flags. -/
theorem gpioMask_getLsbD {m : Byte} (h : m &&& 0x0C#8 = 0#8) :
    gpioMask (m.getLsbD 0) (m.getLsbD 1) (m.getLsbD 4) (m.getLsbD 5) (m.getLsbD 6) (m.getLsbD 7) = m := by
  have h2 : m.getLsbD 2 = false := by simpa using congrArg (BitVec.getLsbD · 2) h
  have h3 : m.getLsbD 3 = false := by simpa using congrArg (BitVec.getLsbD · 3) h
  have hm := or_flagBit_getLsbD m
  rwa [h2, h3, flagBit_false, flagBit_false, BitVec.or_zero, BitVec.or_zero] at hm

/-- 30_encoding.md R59, R60: the command of a packet loses none of its bits, since the mask bits without a flag are 0. -/
theorem cmdRow_presents (escaping : Bool) {p : Packet} {i : Instr} (h : cmdRow p = .ok i) :
    Presents escaping (.command (encodePacket p)) i := by
  cases p with
  | color | cal | power => cases h; exact presents_of_no_context escaping rfl rfl rfl
  | stream m =>
    simp only [cmdRow] at h
    split_ifs at h with hm
    cases h
    exact presents_of_no_context escaping rfl rfl (by simp only [encodeInput, streamMask_getLsbD hm]; rfl)
  | gpioDdr m | gpioPort m =>
    simp only [cmdRow] at h
    split_ifs at h with hm
    cases h
    exact presents_of_no_context escaping rfl rfl (by simp only [encodeInput, gpioMask_getLsbD hm]; rfl)
  | _ => cases h

/-- A CMD row is presented as the frame of the packet it builds (30_encoding.md R72). -/
theorem exists_cmdRow_of_format_cmd {i : Instr} (h : (tableRow i).format = .cmd) :
    ∃ p, encodeInput i = .command (encodePacket p) ∧ cmdRow p = .ok i := by
  cases i with
  | cmdSetColor r g b => exact ⟨.color r g b, rfl, rfl⟩
  | cmdSetStreamingMode q a y m t g =>
    exact ⟨.stream (streamMask q a y m t g), rfl, by simp only [cmdRow, streamMask_bits, if_true]⟩
  | cmdSetCalibration ox oy oz sx sy sz => exact ⟨.cal ox oy oz sx sy sz, rfl, rfl⟩
  | cmdSetGpioDirection f0 f1 f4 f5 f6 f7 =>
    exact ⟨.gpioDdr (gpioMask f0 f1 f4 f5 f6 f7), rfl, by simp only [cmdRow, gpioMask_bits, if_true]⟩
  | cmdSetGpioValue f0 f1 f4 f5 f6 f7 =>
    exact ⟨.gpioPort (gpioMask f0 f1 f4 f5 f6 f7), rfl, by simp only [cmdRow, gpioMask_bits, if_true]⟩
  | cmdSetPower level => exact ⟨.power level, rfl, rfl⟩
  | _ => cases h

/-- 30_encoding.md R72, R73, from the CMD row to the word and back. -/
theorem decodeInput_encodeInput_of_format_cmd {i : Instr} (escaping : Bool) (h : (tableRow i).format = .cmd) :
    decodeInput escaping (encodeInput i) = .ok i := by
  obtain ⟨p, hw, hi⟩ := exists_cmdRow_of_format_cmd h
  rw [hw]
  exact (decodeCmd_encodePacket p).trans hi

/-! ### Every event -/

/-- Settles O49: the table's formats one by one; an EVENT row is its own event. -/
theorem encodedOperationsDecodeBack : Obligations.EncodedOperationsDecodeBack := by
  unfold Obligations.EncodedOperationsDecodeBack
  intro i escaping hwf hctx
  cases hf : (tableRow i).format with
  | rxb => exact decodeInput_encodeInput_of_format_rxb hf hwf hctx
  | txb => exact decodeInput_encodeInput_of_format_txb escaping hf hwf
  | tag => exact decodeInput_encodeInput_of_format_tag escaping hf hwf
  | pkt => exact decodeInput_encodeInput_of_format_pkt escaping hf
  | cmd => exact decodeInput_encodeInput_of_format_cmd escaping hf
  | event =>
    cases i with
    | feed | feedChunk | asmReset | frameEncode | decode | encode | transmit | processChunk | poll | close | xportErr =>
      rfl
    | _ => cases hf

/-- Settles O50: each of the decoder's maps answers operations that present the event read. -/
theorem decodedOperationsAreWellFormedAndEncodeBack : Obligations.DecodedOperationsAreWellFormedAndEncodeBack := by
  unfold Obligations.DecodedOperationsAreWellFormedAndEncodeBack
  intro e escaping i h
  change Presents escaping e i
  cases e with
  | rxByte b => cases h; exact decodeRx_presents escaping b
  | txByte b => cases h; exact decodeTx_presents escaping b
  | frame f => cases h; exact decodeTag_presents escaping f
  | packet w =>
    obtain ⟨p, rfl, rfl⟩ := decodePkt_ok h
    exact encRow_presents escaping p
  | command w =>
    obtain ⟨p, rfl, hi⟩ := decodeCmd_ok h
    exact cmdRow_presents escaping hi
  | txEnd | feed | feedChunk | asmReset | frameEncode | decode | encode | transmit | processChunk | poll | close
  | xportErr => cases h; exact presents_of_no_context escaping rfl rfl rfl

/-- Settles O51: the maps evaluated at each word. -/
theorem spelledOutWordsDecode : Obligations.SpelledOutWordsDecode := by
  unfold Obligations.SpelledOutWordsDecode
  exact ⟨rfl, rfl, rfl, rfl, rfl, rfl, rfl, rfl⟩

end Sys2Proof.Machine
end

section
/-! The outbound frame codec: byte stuffing, its wire form, and the TXB rows that emit it (40_frame_codec.md R81 to
R88). -/

namespace Sys2Proof.Machine

/-! ### One byte and its escape -/

theorem unesc_other {b : Byte} (hend : b ≠ escapedEnd) (hescape : b ≠ escapedEscape) : unesc b = b := by
  simp [unesc, hend, hescape]

/-- 40_frame_codec.md R81 to R83: a byte goes out as an escape pair, which R87's mapping undoes, or as itself. -/
theorem esc_cases (b : Byte) :
    (∃ x, (x = escapedEnd ∨ x = escapedEscape) ∧ esc b = [escape, x] ∧ unesc x = b) ∨
    (esc b = [b] ∧ b ≠ frameEnd ∧ b ≠ escape) := by
  by_cases hend : b = frameEnd
  · subst hend; exact .inl ⟨escapedEnd, .inl rfl, rfl, rfl⟩
  · by_cases hescape : b = escape
    · subst hescape; exact .inl ⟨escapedEscape, .inr rfl, rfl, rfl⟩
    · exact .inr ⟨esc_other hend hescape, hend, hescape⟩

/-- 40_frame_codec.md R88. -/
theorem unesc_of_esc {b x : Byte} (h : esc b = [escape, x]) : unesc x = b := by
  obtain ⟨y, -, hesc, hunesc⟩ | ⟨hesc, -, -⟩ := esc_cases b
  · obtain rfl : y = x := by simpa [hesc] using h
    exact hunesc
  · simp [hesc] at h

/-- Settles O21: `esc_cases` read in both directions. -/
theorem unescapeInvertsEscape : Obligations.UnescapeInvertsEscape := by
  unfold Obligations.UnescapeInvertsEscape
  refine ⟨rfl, rfl, fun b => unesc_other, fun b x => unesc_of_esc, fun b => ?_⟩
  obtain ⟨x, -, hesc, -⟩ | hlit := esc_cases b
  · exact .inl ⟨x, hesc⟩
  · exact .inr hlit

/-! ### The wire form of a payload -/

theorem frameEnd_notMem_esc (b : Byte) : frameEnd ∉ esc b := by
  obtain ⟨x, rfl | rfl, hesc, -⟩ | ⟨hesc, hend, -⟩ := esc_cases b
  · rw [hesc]; decide
  · rw [hesc]; decide
  · simpa [hesc] using hend.symm

/-- 40_frame_codec.md R86: the terminator stands nowhere but at the end. -/
theorem frameEncode_getElem?_ne_frameEnd {p : List Byte} {k : Nat} (hk : k + 1 < (frameEncode p).length) :
    (frameEncode p)[k]? ≠ some frameEnd := by
  intro h
  have hbody : k < (p.flatMap esc).length := by simpa [frameEncode] using hk
  rw [frameEncode, List.getElem?_append_left hbody] at h
  obtain ⟨b, -, hmem⟩ := List.mem_flatMap.mp (List.mem_of_getElem? h)
  exact frameEnd_notMem_esc b hmem

/-- Every ESCAPE is followed by the second byte of a pair (40_frame_codec.md R86). -/
def EscapesPaired (w : List Byte) : Prop :=
  ∀ k, w[k]? = some escape → w[k + 1]? = some escapedEnd ∨ w[k + 1]? = some escapedEscape

theorem EscapesPaired.cons {b : Byte} {w : List Byte} (hb : b ≠ escape) (hw : EscapesPaired w) :
    EscapesPaired (b :: w)
  | 0, h => absurd (by simpa using h) hb
  | k + 1, h => hw k h

theorem EscapesPaired.cons_pair {x : Byte} {w : List Byte} (hx : x = escapedEnd ∨ x = escapedEscape)
    (hw : EscapesPaired w) : EscapesPaired (escape :: x :: w)
  | 0, _ => by simpa using hx
  | k + 1, h => hw.cons (by rintro rfl; revert hx; decide) k h

theorem frameEncode_escapesPaired (p : List Byte) : EscapesPaired (frameEncode p) := by
  induction p with
  | nil => exact EscapesPaired.cons (by decide) fun k h => by simp at h
  | cons b p ih =>
    rw [frameEncode_cons]
    obtain ⟨x, hx, hesc, -⟩ | ⟨hesc, -, hescape⟩ := esc_cases b
    · rw [hesc]; exact ih.cons_pair hx
    · rw [hesc]; exact ih.cons hescape

theorem esc_append_ne_frameEnd (b : Byte) (w v : List Byte) : esc b ++ w ≠ frameEnd :: v := by
  intro h
  obtain ⟨x, -, hesc, -⟩ | ⟨hesc, hend, -⟩ := esc_cases b
  · rw [hesc] at h
    exact absurd (List.head_eq_of_cons_eq h) (by decide)
  · rw [hesc] at h
    exact hend (List.head_eq_of_cons_eq h)

/-- Escapes are prefix-free, since no literal byte is an ESCAPE. -/
theorem esc_append_inj {b c : Byte} {w v : List Byte} (h : esc b ++ w = esc c ++ v) : b = c ∧ w = v := by
  obtain ⟨x, -, hb, hxb⟩ | ⟨hb, -, hbesc⟩ := esc_cases b <;>
    obtain ⟨y, -, hc, hyc⟩ | ⟨hc, -, hcesc⟩ := esc_cases c <;>
    simp only [hb, hc, List.cons_append, List.nil_append, List.cons.injEq] at h
  · obtain ⟨-, rfl, hrest⟩ := h
    exact ⟨hxb.symm.trans hyc, hrest⟩
  · exact absurd h.1.symm hcesc
  · exact absurd h.1 hbesc
  · exact h

theorem frameEncode_injective : Function.Injective frameEncode := by
  intro p q h
  induction p generalizing q with
  | nil =>
    cases q with
    | nil => rfl
    | cons c q => exact absurd (h.trans (frameEncode_cons c q)).symm (esc_append_ne_frameEnd c _ _)
  | cons b p ih =>
    rw [frameEncode_cons] at h
    cases q with
    | nil => exact absurd h (esc_append_ne_frameEnd b _ _)
    | cons c q =>
      rw [frameEncode_cons] at h
      obtain ⟨rfl, hrest⟩ := esc_append_inj h
      rw [ih hrest]

/-- Settles O20: escapes hold no terminator, come in pairs, and are prefix-free. -/
theorem wireFormHasOneTerminatorAndIsInjective : Obligations.WireFormHasOneTerminatorAndIsInjective := by
  unfold Obligations.WireFormHasOneTerminatorAndIsInjective
  exact ⟨fun p => ⟨List.getLast?_concat, fun k => frameEncode_getElem?_ne_frameEnd, frameEncode_escapesPaired p⟩,
    fun p q h => frameEncode_injective h⟩

/-- A byte whose escape is a pair costs one byte more than a literal one. -/
theorem esc_length (b : Byte) :
    (esc b).length = 1 + ((if b == frameEnd then 1 else 0) + if b == escape then 1 else 0) := by
  by_cases hend : b = frameEnd
  · subst hend; rfl
  · by_cases hescape : b = escape
    · subst hescape; rfl
    · simp [esc_other, hend, hescape]

/-- The length law of 40_frame_codec.md R85. -/
theorem frameEncode_length (p : List Byte) :
    (frameEncode p).length = p.length + (p.count frameEnd + p.count escape) + 1 := by
  induction p with
  | nil => rfl
  | cons b p ih =>
    rw [frameEncode_cons, List.length_append, esc_length, ih, List.length_cons, List.count_cons, List.count_cons]
    omega

/-- Settles O19: the operation returns `frameEncode` of its payload. -/
theorem frameEncodeReturnsTheWireForm : Obligations.FrameEncodeReturnsTheWireForm := by
  unfold Obligations.FrameEncodeReturnsTheWireForm
  exact fun s p => ⟨frameEncode p, rfl, rfl, frameEncode_length p⟩

/-! ### The TXB rows -/

/-- Settles O18: each byte class selects its own row, which emits the bytes of `esc`. -/
theorem txRowsEmitTheirWireBytes : Obligations.TxRowsEmitTheirWireBytes := by
  unfold Obligations.TxRowsEmitTheirWireBytes
  refine fun s => ⟨fun b hend hescape => ⟨esc_other hend hescape, ?_, rfl⟩, ⟨rfl, rfl, rfl⟩, ⟨rfl, rfl, rfl⟩, rfl, rfl⟩
  exact decodeInput_encodeInput_of_format_txb _ rfl (txLit_wellFormed.mpr ⟨hend, hescape⟩)

/-- 30_encoding.md R62 with 40_frame_codec.md R81 to R83: the outbound map splits the bytes as `esc` does. -/
theorem exec_decodeTx (b : Byte) (s : State) : exec (decodeTx b) s = .next (emitTx (esc b) s) := by
  unfold decodeTx esc
  split_ifs <;> rfl

theorem emitTx_emitTx (bs cs : List Byte) (s : State) : emitTx cs (emitTx bs s) = emitTx (bs ++ cs) s := by
  simp [emitTx_eq]

theorem step_of_txByte {s : State} {b : Byte} {rest : List Input} (hin : s.inputs = .txByte b :: rest) :
    step s = .next (emitTx (esc b) (s.setInputs rest)) :=
  step_of_exec_next hin rfl (exec_decodeTx b _)

theorem step_of_txEnd {s : State} {rest : List Input} (hin : s.inputs = .txEnd :: rest) :
    step s = .next (emitTx [frameEnd] (s.setInputs rest)) :=
  step_of_exec_next hin rfl rfl

/-- One step per payload byte and one for its end emit the wire form. -/
theorem run_txBytes_txEnd (s : State) (p : List Byte) :
    core.run (p.length + 1) (s.setInputs (p.map .txByte ++ [.txEnd])) =
      .next (emitTx (frameEncode p) (s.setInputs [])) := by
  induction p generalizing s with
  | nil => exact run_succ (step_of_txEnd rfl)
  | cons b p ih =>
    calc core.run (p.length + 1 + 1) (s.setInputs (.txByte b :: (p.map .txByte ++ [.txEnd])))
      _ = core.run (p.length + 1) ((emitTx (esc b) s).setInputs (p.map .txByte ++ [.txEnd])) :=
        run_succ (step_of_txByte rfl)
      _ = .next (emitTx (frameEncode p) (emitTx (esc b) (s.setInputs []))) := ih _
      _ = .next (emitTx (frameEncode (b :: p)) (s.setInputs [])) := by rw [emitTx_emitTx, frameEncode_cons]

/-- Settles O22: the run of the TXB rows, with `emitTx` written out. -/
theorem txRowsInSequenceEmitTheWireForm : Obligations.TxRowsInSequenceEmitTheWireForm := by
  unfold Obligations.TxRowsInSequenceEmitTheWireForm
  exact run_txBytes_txEnd

end Sys2Proof.Machine
end

section
/-! What `decode` answers, by the tag and the length of the frame, and what the TAG rows do with it (41_packet_decode.md
R91 to R110). -/

namespace Sys2Proof.Machine

/-! ### The layout table -/

/-- The tags that have a layout, with their widths, as 30_encoding.md R54 lists them. -/
def layouts : List (Nat × Nat) :=
  [(0, 16), (1, 6), (2, 6), (3, 6), (5, 1), (6, 3), (7, 3), (8, 1), (9, 1), (10, 4), (11, 4), (12, 24), (13, 1), (14, 1),
    (15, 1)]

theorem payloadWidth?_of_mem_layouts {tag : Byte} {w : Nat} (h : (tag.toNat, w) ∈ layouts) :
    payloadWidth? tag = some w := by
  have hall : ∀ x ∈ layouts, payloadWidth? (BitVec.ofNat 8 x.1) = some x.2 := by decide
  simpa using hall _ h

theorem payloadWidth?_eq_none {tag : Byte} (h : tag.toNat = 4 ∨ 15 < tag.toNat) : payloadWidth? tag = none := by
  obtain h4 | hout := h
  · simp [payloadWidth?, h4]
  · obtain ⟨k, hk⟩ := Nat.exists_eq_add_of_le' hout
    simp [payloadWidth?, hk]

/-! ### What `decode` answers -/

section Decode

variable {tag : Byte} {payload : List Byte} {w : Nat}

theorem decodeFrame_of_no_width (h : payloadWidth? tag = none) :
    decodeFrame (tag :: payload) = .err .unknownType := by
  obtain ⟨k, rfl⟩ | hout := tag_cases tag
  · -- Of the enumeration's tags only TEMPERATURE, tag 4, has no layout.
    obtain rfl : k = 4 := by revert k; decide
    rfl
  · exact decodeFrame_of_le hout payload

/-- A parser's test of the frame's length is a test of the payload's. -/
theorem lengthTest_cons (q : Packet) :
    (if (tag :: payload).length ≠ w + 1 then .err .sizeMismatch else .ok q) =
      if payload.length = w then Result.ok q else .err .sizeMismatch := by
  simp

/-- 41_packet_decode.md R91 for a tag that has a layout: the exact length, then a packet of that tag. -/
theorem decodeFrame_of_width (h : payloadWidth? tag = some w) :
    ∃ p, packetTag p = tag ∧
      decodeFrame (tag :: payload) = if payload.length = w then .ok p else .err .sizeMismatch := by
  obtain ⟨k, rfl⟩ | hout := tag_cases tag
  · fin_cases k
    -- TEMPERATURE, tag 4, has no layout.
    pick_goal 5
    · cases h
    all_goals
      cases h
      exact ⟨_, by rfl, lengthTest_cons _⟩
  · rw [payloadWidth?_eq_none (.inr hout)] at h
    cases h

theorem decodeFrame_of_length_ne (h : payloadWidth? tag = some w) (hlen : payload.length ≠ w) :
    decodeFrame (tag :: payload) = .err .sizeMismatch := by
  obtain ⟨p, -, hdec⟩ := decodeFrame_of_width (payload := payload) h
  rw [hdec, if_neg hlen]

theorem decodeFrame_of_length_eq (h : payloadWidth? tag = some w) (hlen : payload.length = w) :
    ∃ p, decodeFrame (tag :: payload) = .ok p ∧ packetTag p = tag := by
  obtain ⟨p, htag, hdec⟩ := decodeFrame_of_width (payload := payload) h
  exact ⟨p, by rw [hdec, if_pos hlen], htag⟩

theorem decodeFrame_cons_ok_iff :
    (∃ p, decodeFrame (tag :: payload) = .ok p) ↔ payloadWidth? tag = some payload.length := by
  constructor
  · rintro ⟨p, hp⟩
    cases hw : payloadWidth? tag with
    | none => simp [decodeFrame_of_no_width hw] at hp
    | some w =>
      by_contra hne
      have hlen : payload.length ≠ w := fun heq => hne (by rw [heq])
      simp [decodeFrame_of_length_ne hw hlen] at hp
  · intro hw
    obtain ⟨p, hp, -⟩ := decodeFrame_of_length_eq hw rfl
    exact ⟨p, hp⟩

end Decode

/-- Settles O32: the empty frame is an error, and the layout table decides every other frame. -/
theorem decodeAcceptsExactlyTheWellFormedFrames : Obligations.DecodeAcceptsExactlyTheWellFormedFrames := by
  unfold Obligations.DecodeAcceptsExactlyTheWellFormedFrames
  intro F
  cases F with
  | nil => simp [decodeFrame, parseEmpty]
  | cons tag payload =>
    rw [decodeFrame_cons_ok_iff]
    constructor
    · exact fun hw => ⟨tag, payload.length, rfl, hw, by rw [List.length_cons, Nat.add_comm]⟩
    · rintro ⟨_, w, hhead, hw, hlen⟩
      cases hhead
      rw [List.length_cons, Nat.add_comm, Nat.add_left_cancel_iff] at hlen
      rw [hw, hlen]

/-! ### The TAG rows -/

/-- The row a frame selects emits what `decode` answers on the frame. -/
theorem exec_decodeTag (F : Frame) (s : State) : exec (decodeTag F) s = .next (emitResult (decodeFrame F) s) := by
  cases F with
  | nil => rfl
  | cons tag payload =>
    obtain ⟨k, rfl⟩ | hout := tag_cases tag
    · fin_cases k <;> rfl
    · rw [decodeTag_of_le hout, decodeFrame_of_le hout]
      rfl

theorem exec_decodeTag_of_length_ne (tag : Byte) {payload : List Byte} {w : Nat} (h : payloadWidth? tag = some w)
    (hlen : payload.length ≠ w) (s : State) :
    exec (decodeTag (tag :: payload)) s = .next (emitResult (.err .sizeMismatch) s) := by
  rw [exec_decodeTag, decodeFrame_of_length_ne h hlen]

/-- Settles O25: DECODE and the row of the tag emit one answer, which the layout table fixes. -/
theorem decodeTestsTheTagThenTheLength : Obligations.DecodeTestsTheTagThenTheLength := by
  unfold Obligations.DecodeTestsTheTagThenTheLength
  refine fun s F => ⟨decodeFrame F, rfl, (exec_decodeTag F s).symm, ?_, ?_⟩
  · rintro rfl
    rfl
  · rintro tag payload rfl
    refine ⟨fun h => decodeFrame_of_no_width (payloadWidth?_eq_none h), fun w h => ?_⟩
    have hw : payloadWidth? tag = some w := payloadWidth?_of_mem_layouts h
    exact ⟨decodeFrame_of_length_ne hw, decodeFrame_of_length_eq hw⟩

/-- Settles O31: a TAG row is `emitResult` of a result that its operands fix. -/
theorem everyTagRowOnlyEmitsItsResult : Obligations.EveryTagRowOnlyEmitsItsResult := by
  unfold Obligations.EveryTagRowOnlyEmitsItsResult
  refine ⟨fun s r => emitResult_eq r s, fun _ => rfl, fun i s hi => ?_⟩
  obtain ⟨r, hexec⟩ := exec_of_format_tag hi
  exact ⟨r, hexec s, hexec⟩

/-- Settles O30: neither row reads its payload, and the tag map compares all eight bits. -/
theorem temperatureAndUnknownTagsAreUnknownTypeAtEveryLength :
    Obligations.TemperatureAndUnknownTagsAreUnknownTypeAtEveryLength := by
  unfold Obligations.TemperatureAndUnknownTagsAreUnknownTypeAtEveryLength
  exact fun s payload => ⟨rfl, rfl, fun _ h => ⟨congrArg Except.ok (decodeTag_of_le h payload), rfl⟩⟩

/-! On a payload of its layout's width a row computes its packet; on every other the length test fails. -/

/-- Settles O26: tags 0 and 12. -/
theorem floatRowsReadTheirPatterns : Obligations.FloatRowsReadTheirPatterns := by
  unfold Obligations.FloatRowsReadTheirPatterns
  refine fun s => ⟨?_, fun payload h => ?_, ?_, fun payload h => ?_⟩
  · intros; rfl
  · exact exec_decodeTag_of_length_ne 0x00#8 rfl h s
  · intros; rfl
  · exact exec_decodeTag_of_length_ne 0x0C#8 rfl h s

/-- 30_encoding.md R57 on a big-endian pair (log entry 9). -/
theorem sext16_be16 (b0 b1 : Byte) :
    sext16 (be16 b0 b1) =
      if b0.toNat * 256 + b1.toNat < 32768 then (b0.toNat * 256 + b1.toNat : Int)
      else (b0.toNat * 256 + b1.toNat : Int) - 65536 := by
  simp [sext16, be16_toNat]

/-- Settles O27: tags 1, 2 and 3. -/
theorem signedRowsReadThreeValues : Obligations.SignedRowsReadThreeValues := by
  unfold Obligations.SignedRowsReadThreeValues
  refine fun s => ⟨fun _ _ _ _ _ _ => ⟨rfl, rfl, rfl⟩, sext16_be16, fun payload h => ?_⟩
  have hne := fun tag hw => exec_decodeTag_of_length_ne (w := 6) tag hw h s
  exact ⟨hne 0x01#8 rfl, hne 0x02#8 rfl, hne 0x03#8 rfl⟩

/-- Settles O28: tags 5, 8, 9, 13, 14 and 15. -/
theorem oneByteRowsReadTheByte : Obligations.OneByteRowsReadTheByte := by
  unfold Obligations.OneByteRowsReadTheByte
  refine fun s => ⟨fun _ => ⟨rfl, rfl, rfl, rfl, rfl, rfl⟩, fun payload h => ?_⟩
  have hne := fun tag hw => exec_decodeTag_of_length_ne (w := 1) tag hw h s
  exact ⟨hne 0x05#8 rfl, hne 0x08#8 rfl, hne 0x09#8 rfl, hne 0x0D#8 rfl, hne 0x0E#8 rfl, hne 0x0F#8 rfl⟩

/-- Settles O29: tags 6 and 7, then 10 and 11. -/
theorem colorBlinkVersionAndIdRowsReadTheirFields : Obligations.ColorBlinkVersionAndIdRowsReadTheirFields := by
  unfold Obligations.ColorBlinkVersionAndIdRowsReadTheirFields
  refine fun s => ⟨fun _ _ _ => ⟨rfl, rfl⟩, fun _ _ _ _ => ⟨rfl, rfl⟩, fun payload h => ?_, fun payload h => ?_⟩
  · have hne := fun tag hw => exec_decodeTag_of_length_ne (w := 3) tag hw h s
    exact ⟨hne 0x06#8 rfl, hne 0x07#8 rfl⟩
  · have hne := fun tag hw => exec_decodeTag_of_length_ne (w := 4) tag hw h s
    exact ⟨hne 0x0A#8 rfl, hne 0x0B#8 rfl⟩

end Sys2Proof.Machine
end

section
/-! What `encode` returns, and what the commands transmit (42_packet_encode_commands.md R120 to R149). -/

namespace Sys2Proof.Machine

/-! ### ENCODE and the PKT rows -/

/-- 42_packet_encode_commands.md R120: a frame is the packet's tag, then a payload of the tag's layout width. -/
theorem encodePacket_eq_cons (p : Packet) :
    ∃ payload, encodePacket p = packetTag p :: payload ∧ payload ≠ [] ∧
      payloadWidth? (packetTag p) = some payload.length := by
  cases p <;> exact ⟨_, rfl, List.cons_ne_nil _ _, rfl⟩

/-- Each packet's PKT row returns the frame of that packet. -/
theorem exec_encRow (p : Packet) (s : State) : exec (encRow p) s = .next (returnBytes (encodePacket p) s) := by
  cases p <;> rfl

/-- Settles O36: DECODE answers `decodeFrame` and ENCODE returns `encodePacket`, which undo each other. -/
theorem encodeAndDecodeAreInverse : Obligations.EncodeAndDecodeAreInverse := by
  unfold Obligations.EncodeAndDecodeAreInverse
  refine fun s => ⟨fun p t u F henc hF hdec => ?_, fun F p t u hdec hp henc => ?_⟩
  · cases henc
    cases hF
    cases hdec
    exact congrArg Ret.result (decodeFrame_encodePacket p)
  · cases hdec
    cases henc
    have hok : decodeFrame F = .ok p := Ret.result.inj hp
    exact congrArg Ret.bytes (encodePacket_of_decodeFrame hok)

/-- Settles O33: the rows return their frame builders; an `s16` field's pattern is that of its value. -/
theorem wideEncodersReturnBigEndianFrames : Obligations.WideEncodersReturnBigEndianFrames := by
  unfold Obligations.WideEncodersReturnBigEndianFrames
  refine fun s => ⟨fun _ _ _ _ => rfl, fun v0 v1 v2 => ?_, fun _ => ⟨rfl, rfl⟩, fun _ _ _ _ _ _ => rfl⟩
  simp only [trunc16_sext16]
  exact ⟨rfl, rfl, rfl⟩

/-- Settles O34: the rows return their frame builders. -/
theorem byteEncodersReturnTagThenBytes : Obligations.ByteEncodersReturnTagThenBytes := by
  unfold Obligations.ByteEncodersReturnTagThenBytes
  exact fun _ _ _ _ => ⟨rfl, rfl, rfl, rfl, rfl, rfl, rfl, rfl⟩

/-- Settles O35: ENCODE and the packet's row return the same frame, whose form is `encodePacket_eq_cons`. -/
theorem encodeReturnsTheExactWidthFrameOfThePacket : Obligations.EncodeReturnsTheExactWidthFrameOfThePacket := by
  unfold Obligations.EncodeReturnsTheExactWidthFrameOfThePacket
  intro s p
  obtain ⟨payload, hframe, hne, hwidth⟩ := encodePacket_eq_cons p
  refine ⟨encodePacket p, rfl, (exec_encRow p s).symm, ?_⟩
  rw [hframe]
  exact ⟨rfl, hwidth, Nat.succ_le_succ (List.length_pos_iff.mpr hne)⟩

/-! ### TRANSMIT and the commands -/

/-- 42_packet_encode_commands.md R140 where the transport takes the write. -/
theorem exec_transmit_of_accepted {s : State} (h : s.writes.head? ≠ some .failed) (p : Packet) :
    exec (.transmit p) s =
      .next { s with writes := s.writes.tail, trace := s.trace ++ (frameEncode (encodePacket p)).map .txByte,
                     ret := .nothing } := by
  obtain ⟨-, heq⟩ | ⟨ws, hfailed, -⟩ := transmitPacket_cases p s
  · exact congrArg Host.Outcome.next heq
  · exact absurd (by rw [hfailed]; rfl) h

/-- Settles O37: an accepted write is the first case of `transmitPacket_cases`. -/
theorem transmitEmitsTheWholeWireForm : Obligations.TransmitEmitsTheWholeWireForm := by
  unfold Obligations.TransmitEmitsTheWholeWireForm
  exact fun s p h => exec_transmit_of_accepted h p

/-- Settles O44: each command's meaning is `transmitPacket` of the packet it builds, as TRANSMIT's is. -/
theorem everyCommandIsATransmit : Obligations.EveryCommandIsATransmit := by
  unfold Obligations.EveryCommandIsATransmit
  intros
  exact ⟨rfl, rfl, rfl, rfl, rfl, rfl⟩

/-- Settles O38: each command is the TRANSMIT of its packet, and the packet's frame is its builder's. -/
theorem plainCommandsTransmitTheirPacket : Obligations.PlainCommandsTransmitTheirPacket := by
  unfold Obligations.PlainCommandsTransmitTheirPacket
  exact fun s h => ⟨fun r g b => exec_transmit_of_accepted h (.color r g b),
    fun ox oy oz sx sy sz => exec_transmit_of_accepted h (.cal ox oy oz sx sy sz),
    fun level => exec_transmit_of_accepted h (.power level)⟩

/-- A bit outside a mask's flags is 0. -/
theorem getLsbD_eq_false_of_and_eq_zero {m c : Byte} {k : Nat} (h : m &&& c = 0#8) (hc : c.getLsbD k = true) :
    m.getLsbD k = false := by
  simpa [hc] using congrArg (BitVec.getLsbD · k) h

/-- All eight bits of the GPIO mask (30_encoding.md R60). -/
theorem gpioMask_getLsbD_all (f0 f1 f4 f5 f6 f7 : Bool) :
    (gpioMask f0 f1 f4 f5 f6 f7).getLsbD 0 = f0 ∧ (gpioMask f0 f1 f4 f5 f6 f7).getLsbD 1 = f1 ∧
      (gpioMask f0 f1 f4 f5 f6 f7).getLsbD 2 = false ∧ (gpioMask f0 f1 f4 f5 f6 f7).getLsbD 3 = false ∧
      (gpioMask f0 f1 f4 f5 f6 f7).getLsbD 4 = f4 ∧ (gpioMask f0 f1 f4 f5 f6 f7).getLsbD 5 = f5 ∧
      (gpioMask f0 f1 f4 f5 f6 f7).getLsbD 6 = f6 ∧ (gpioMask f0 f1 f4 f5 f6 f7).getLsbD 7 = f7 := by
  obtain ⟨hzero, h0, h1, hhigh⟩ := gpioMask_bits f0 f1 f4 f5 f6 f7
  exact ⟨h0, h1, getLsbD_eq_false_of_and_eq_zero hzero rfl, getLsbD_eq_false_of_and_eq_zero hzero rfl, hhigh⟩

/-- Settles O39: the commands transmit `streamMask` and `gpioMask` of their flags. -/
theorem maskCommandsPlaceEachFlagAtItsBit : Obligations.MaskCommandsPlaceEachFlagAtItsBit := by
  unfold Obligations.MaskCommandsPlaceEachFlagAtItsBit
  refine fun s h => ⟨fun quat acc gyro mag temperature gpio => ?_, fun f0 f1 f4 f5 f6 f7 => ?_⟩
  · obtain ⟨hzero, h0, h1, h2, h3, h4, h5⟩ := streamMask_bits quat acc gyro mag temperature gpio
    exact ⟨streamMask quat acc gyro mag temperature gpio, exec_transmit_of_accepted h (.stream _), h0, h1, h2, h3, h4,
      h5, getLsbD_eq_false_of_and_eq_zero hzero rfl, getLsbD_eq_false_of_and_eq_zero hzero rfl⟩
  · exact ⟨gpioMask f0 f1 f4 f5 f6 f7, exec_transmit_of_accepted h (.gpioDdr _),
      gpioMask_getLsbD_all f0 f1 f4 f5 f6 f7⟩

/-- Settles O40: the command transmits `gpioMask` of its flags. -/
theorem setGpioValuePlacesEachFlagAtItsBit : Obligations.SetGpioValuePlacesEachFlagAtItsBit := by
  unfold Obligations.SetGpioValuePlacesEachFlagAtItsBit
  exact fun s f0 f1 f4 f5 f6 f7 h => ⟨gpioMask f0 f1 f4 f5 f6 f7, exec_transmit_of_accepted h (.gpioPort _),
    gpioMask_getLsbD_all f0 f1 f4 f5 f6 f7⟩

/-- Settles O41: what a word decodes to is presented by that word, and only the six commands are presented on
`CMD_IN`. -/
theorem theCommandSetIsClosed : Obligations.TheCommandSetIsClosed := by
  unfold Obligations.TheCommandSetIsClosed
  intro escaping w i h
  obtain ⟨-, -, hpresents⟩ := decodedOperationsAreWellFormedAndEncodeBack _ _ _ h
  cases i with
  | cmdSetColor r g b => exact .inl ⟨r, g, b, rfl⟩
  | cmdSetStreamingMode a b c d e f => exact .inr (.inl ⟨a, b, c, d, e, f, rfl⟩)
  | cmdSetCalibration a b c d e f => exact .inr (.inr (.inl ⟨a, b, c, d, e, f, rfl⟩))
  | cmdSetGpioDirection a b c d e f => exact .inr (.inr (.inr (.inl ⟨a, b, c, d, e, f, rfl⟩)))
  | cmdSetGpioValue a b c d e f => exact .inr (.inr (.inr (.inr (.inl ⟨a, b, c, d, e, f, rfl⟩))))
  | cmdSetPower level => exact .inr (.inr (.inr (.inr (.inr ⟨level, rfl⟩))))
  | _ => cases hpresents

end Sys2Proof.Machine
end

section
/-! The stream assembler: what one received byte and one chunk do to `S`, and that feeding undoes the frame codec
(43_stream_assembler.md R161 to R175). -/

namespace Sys2Proof.Machine

/-! ### One received byte -/

/-- `k` more bytes fit in this buffer: `State.roomFor`, said of the assembler alone (70_reset_and_hazards.md R233). -/
def RoomFor (cap : Option Nat) (buf : Frame) (k : Nat) : Prop := ∀ n, cap = some n → buf.length + k ≤ n

section Feed

variable {cap : Option Nat} {S : Assembler}

theorem hasRoom_of_roomFor {buf : Frame} {k : Nat} (h : RoomFor cap buf (k + 1)) : hasRoom cap buf = true := by
  cases cap with
  | none => rfl
  | some n =>
    have hn := h n rfl
    simp only [hasRoom_some, decide_eq_true_eq]
    omega

theorem asmUnescape_of_room (hroom : hasRoom cap S.buf = true) (v : Byte) :
    asmUnescape cap S v = some ({ buf := S.buf ++ [v], escaping := false }, none) := by
  simp [asmUnescape, asmAppend, hroom]

theorem asmData_of_room (hroom : hasRoom cap S.buf = true) (b : Byte) :
    asmData cap S b = some ({ S with buf := S.buf ++ [b] }, none) := by
  simp [asmData, asmAppend, hroom]

/-- In NORMAL a terminator leaves the reset value, delivering the buffer unless it is empty. -/
theorem asmEnd_of_normal (hesc : S.escaping = false) :
    asmEnd S = some ({ buf := [], escaping := false }, if S.buf = [] then none else some S.buf) := by
  obtain ⟨buf, escaping⟩ := S
  cases hesc
  cases buf <;> rfl

theorem feed_escaped (hesc : S.escaping = true) (hroom : hasRoom cap S.buf = true) (b : Byte) :
    feed cap S b = some ({ buf := S.buf ++ [unesc b], escaping := false }, none) := by
  simp only [feed, hesc, if_true, asmUnescEnd, asmUnescEsc, asmUnescLit, asmUnescape_of_room hroom, unesc]
  split_ifs <;> rfl

theorem feed_escape (hesc : S.escaping = false) :
    feed cap S escape = some ({ S with escaping := true }, none) := by
  simp [feed, hesc, asmEsc]

theorem feed_frameEnd (hesc : S.escaping = false) :
    feed cap S frameEnd =
      some ({ buf := [], escaping := false }, if S.buf = [] then none else some S.buf) := by
  have hne : frameEnd ≠ escape := by decide
  simp [feed, hesc, hne, asmEnd_of_normal]

theorem feed_data {b : Byte} (hesc : S.escaping = false) (hescape : b ≠ escape) (hend : b ≠ frameEnd)
    (hroom : hasRoom cap S.buf = true) : feed cap S b = some ({ S with buf := S.buf ++ [b] }, none) := by
  simp [feed, hesc, hescape, hend, asmData_of_room hroom]

/-- 43_stream_assembler.md R161: with room for one byte every branch completes. -/
theorem feed_of_room (hroom : hasRoom cap S.buf = true) (b : Byte) : ∃ S' r, feed cap S b = some (S', r) := by
  cases hesc : S.escaping with
  | true => exact ⟨_, _, feed_escaped hesc hroom b⟩
  | false =>
    by_cases hescape : b = escape
    · subst hescape; exact ⟨_, _, feed_escape hesc⟩
    · by_cases hend : b = frameEnd
      · subst hend; exact ⟨_, _, feed_frameEnd hesc⟩
      · exact ⟨_, _, feed_data hesc hescape hend hroom⟩

/-- 43_stream_assembler.md R171: one byte adds at most one cell, and only a terminator returns a frame. -/
theorem feed_bounds {S' : Assembler} {b : Byte} {r : Option Frame} (h : feed cap S b = some (S', r)) :
    S'.buf.length ≤ S.buf.length + 1 ∧ r.toList.length ≤ [b].count frameEnd := by
  obtain ⟨-, -, rfl, rfl⟩ | ⟨-, -, rfl, rfl⟩ | ⟨-, rfl, -, rfl, rfl⟩ | ⟨-, -, -, rfl, rfl⟩ | ⟨-, -, -, -, rfl, rfl⟩ :=
    feed_cases h <;> simp

end Feed

/-! ### The RXB rows -/

/-- 30_encoding.md R61: in its own context a row is selected by the byte it is written as. -/
theorem decodeInput_rxRow {s : State} {i : Instr} (hfmt : (tableRow i).format = .rxb) (hwf : i.wellFormed = true)
    (hctx : i.context = some s.asm.escaping) : decodeInput s.asm.escaping (encodeInput i) = .ok i :=
  decodeInput_encodeInput_of_format_rxb hfmt hwf fun c hc => by simpa [hctx] using hc

theorem applyFeed_no_frame (S : Assembler) (s : State) :
    applyFeed (some (S, none)) s = .next { s with asm := S, ret := .frame none } := by
  simp [applyFeed, State.setAsm, State.emit, State.setRet]

theorem applyFeed_frame (S : Assembler) (f : Frame) (s : State) :
    applyFeed (some (S, some f)) s =
      .next { s with asm := S, trace := s.trace ++ [.frameOut f], ret := .frame (some f) } := rfl

theorem applyFeed_asmUnescape {s : State} (hroom : s.roomFor 1) (v : Byte) :
    applyFeed (asmUnescape s.par.bufCap s.asm v) s =
      .next { s with asm := { buf := s.asm.buf ++ [v], escaping := false }, ret := .frame none } := by
  rw [asmUnescape_of_room (hasRoom_of_roomFor hroom), applyFeed_no_frame]

/-- Settles O2: the row is the unescaping append of 0xC0. -/
theorem rxUnescEndAppendsFrameEnd : Obligations.RxUnescEndAppendsFrameEnd := by
  unfold Obligations.RxUnescEndAppendsFrameEnd
  exact fun s hesc hroom => ⟨decodeInput_rxRow (i := .rxUnescEnd) rfl rfl (congrArg some hesc.symm),
    applyFeed_asmUnescape hroom frameEnd⟩

/-- Settles O3: the row is the unescaping append of 0xDB. -/
theorem rxUnescEscAppendsEscape : Obligations.RxUnescEscAppendsEscape := by
  unfold Obligations.RxUnescEscAppendsEscape
  exact fun s hesc hroom => ⟨decodeInput_rxRow (i := .rxUnescEsc) rfl rfl (congrArg some hesc.symm),
    applyFeed_asmUnescape hroom escape⟩

/-- Settles O4: the row is the unescaping append of its own byte. -/
theorem rxUnescLitAppendsTheByteItself : Obligations.RxUnescLitAppendsTheByteItself := by
  unfold Obligations.RxUnescLitAppendsTheByteItself
  exact fun s b hesc hend hescape hroom =>
    ⟨decodeInput_rxRow (i := .rxUnescLit b) rfl (rxUnescLit_wellFormed.mpr ⟨hend, hescape⟩) (congrArg some hesc.symm),
      applyFeed_asmUnescape hroom b⟩

/-- Settles O5: the row only sets the flag. -/
theorem rxEscSetsTheFlagAndAppendsNothing : Obligations.RxEscSetsTheFlagAndAppendsNothing := by
  unfold Obligations.RxEscSetsTheFlagAndAppendsNothing
  exact fun s hesc => ⟨decodeInput_rxRow (i := .rxEsc) rfl rfl (congrArg some hesc.symm), applyFeed_no_frame _ s⟩

/-- Settles O6: the two cases of `asmEnd_of_normal`. -/
theorem rxEndDeliversTheWholeBufferOrNothing : Obligations.RxEndDeliversTheWholeBufferOrNothing := by
  unfold Obligations.RxEndDeliversTheWholeBufferOrNothing
  intro s hesc
  have hexec : exec .rxEnd s = applyFeed (asmEnd s.asm) s := rfl
  rw [asmEnd_of_normal hesc] at hexec
  refine ⟨decodeInput_rxRow (i := .rxEnd) rfl rfl (congrArg some hesc.symm), fun hbuf => ?_, fun hbuf => ?_⟩
  · rw [hexec, if_neg hbuf, applyFeed_frame]
  · rw [hexec, if_pos hbuf, applyFeed_no_frame, ← hbuf, ← hesc]

/-- Settles O7: the row is the append that keeps the flag. -/
theorem rxDataAppendsTheByte : Obligations.RxDataAppendsTheByte := by
  unfold Obligations.RxDataAppendsTheByte
  intro s b hesc hescape hend hroom
  have hexec : exec (.rxData b) s = applyFeed (asmData s.par.bufCap s.asm b) s := rfl
  refine ⟨decodeInput_rxRow (i := .rxData b) rfl (rxData_wellFormed.mpr ⟨hescape, hend⟩) (congrArg some hesc.symm), ?_⟩
  rw [hexec, asmData_of_room (hasRoom_of_roomFor hroom), applyFeed_no_frame, hesc]

/-- Settles O8: FEED runs the row that O9 names, and O2 to O7 say what each row does. -/
theorem feedTakesTheBranchOfTheTransitionFunction : Obligations.FeedTakesTheBranchOfTheTransitionFunction := by
  unfold Obligations.FeedTakesTheBranchOfTheTransitionFunction
  intro s b hroom
  obtain ⟨i, -, hrow, rfl⟩ := feedRunsTheRowTheByteClassMapSelects s b
  rw [hrow]
  cases hesc : s.asm.escaping with
  | true =>
    simp only [if_true]
    split_ifs with hend hescape
    · exact (rxUnescEndAppendsFrameEnd s hesc hroom).2
    · exact (rxUnescEscAppendsEscape s hesc hroom).2
    · exact (rxUnescLitAppendsTheByteItself s b hesc hend hescape hroom).2
  | false =>
    simp only [Bool.false_eq_true, if_false]
    obtain ⟨-, hdeliver, hempty⟩ := rxEndDeliversTheWholeBufferOrNothing s hesc
    split_ifs with hescape hend hbuf
    · exact (rxEscSetsTheFlagAndAppendsNothing s hesc).2
    · exact hempty hbuf
    · exact hdeliver hbuf
    · simpa only [hesc] using (rxDataAppendsTheByte s b hesc hescape hend hroom).2

/-! ### The control events -/

/-- Settles O42: all three are the discard, to which the TransportError adds its report. -/
theorem resetAndCloseDiscardAndEmitNothing : Obligations.ResetAndCloseDiscardAndEmitNothing := by
  unfold Obligations.ResetAndCloseDiscardAndEmitNothing
  exact fun s => ⟨congrArg Host.Outcome.next (discardAsm_eq s), congrArg Host.Outcome.next (discardAsm_eq s),
    takeTransportError s, rfl, rfl⟩

/-! ### Chunks -/

section Chunk

variable {cap : Option Nat} {S S' : Assembler} {c : List Byte} {fs : List Frame}

/-- 43_stream_assembler.md R168 as one equation. -/
theorem feedChunk_cons_eq_bind (cap : Option Nat) (S : Assembler) (b : Byte) (c : List Byte) :
    feedChunk cap S (b :: c) =
      (feed cap S b).bind fun x => (feedChunk cap x.1 c).map fun y => (y.1, x.2.toList ++ y.2) := by
  cases hb : feed cap S b with
  | none => simp [feedChunk, hb]
  | some x => cases hc : feedChunk cap x.1 c <;> simp [feedChunk, hb, hc]

/-- 43_stream_assembler.md R169 for one cut: a chunk of two parts is the first part, then the second. -/
theorem feedChunk_append (cap : Option Nat) (S : Assembler) (c d : List Byte) :
    feedChunk cap S (c ++ d) =
      (feedChunk cap S c).bind fun x => (feedChunk cap x.1 d).map fun y => (y.1, x.2 ++ y.2) := by
  induction c generalizing S with
  | nil => cases h : feedChunk cap S d <;> simp [h]
  | cons b c ih =>
    rw [List.cons_append, feedChunk_cons_eq_bind, feedChunk_cons_eq_bind]
    cases feed cap S b with
    | none => rfl
    | some x =>
      simp only [Option.bind_some, ih]
      cases feedChunk cap x.1 c with
      | none => rfl
      | some y => cases h : feedChunk cap y.1 d <;> simp [h]

/-- Two parts that complete, their frames in order. -/
theorem feedChunk_append_some {S1 S2 : Assembler} {d : List Byte} {gs : List Frame}
    (hc : feedChunk cap S c = some (S1, fs)) (hd : feedChunk cap S1 d = some (S2, gs)) :
    feedChunk cap S (c ++ d) = some (S2, fs ++ gs) := by
  simp [feedChunk_append, hc, hd]

/-- 43_stream_assembler.md R168: a chunk for which there is room completes. -/
theorem feedChunk_of_room (hroom : RoomFor cap S.buf c.length) : ∃ S' fs, feedChunk cap S c = some (S', fs) := by
  induction c generalizing S with
  | nil => exact ⟨S, [], rfl⟩
  | cons b c ih =>
    obtain ⟨S1, r, hb⟩ := feed_of_room (hasRoom_of_roomFor hroom) b
    obtain ⟨hlen, -⟩ := feed_bounds hb
    have hrest : RoomFor cap S1.buf c.length := fun n hn => by
      have hbc := hroom n hn
      rw [List.length_cons] at hbc
      omega
    obtain ⟨S2, fs, hc⟩ := ih hrest
    exact ⟨S2, _, feedChunk_cons hb hc⟩

/-- 43_stream_assembler.md R168 (d): no more frames than terminators. -/
theorem feedChunk_length_le (h : feedChunk cap S c = some (S', fs)) : fs.length ≤ c.count frameEnd := by
  induction c generalizing S fs with
  | nil => cases h; simp
  | cons b c ih =>
    obtain ⟨S1, r, gs, hb, hc, rfl⟩ := feedChunk_cons_some h
    obtain ⟨-, hr⟩ := feed_bounds hb
    have hgs := ih hc
    calc (r.toList ++ gs).length
      _ = r.toList.length + gs.length := List.length_append
      _ ≤ [b].count frameEnd + c.count frameEnd := Nat.add_le_add hr hgs
      _ = (b :: c).count frameEnd := (List.count_append (l₁ := [b])).symm

/-- The operation FEED_CHUNK from what the chunk does to the assembler. -/
theorem exec_feedChunk {s : State} (h : feedChunk s.par.bufCap s.asm c = some (S', fs)) :
    exec (.feedChunk c) s =
      .next { s with asm := S', trace := s.trace ++ fs.map .frameOut, ret := .frames fs } := by
  have hexec : exec (.feedChunk c) s = applyFeedChunk c s := rfl
  simp only [hexec, applyFeedChunk, h]
  rfl

theorem exec_feedChunk_overflow {s : State} (h : feedChunk s.par.bufCap s.asm c = none) :
    exec (.feedChunk c) s = .fault .rxOverflow := by
  have hexec : exec (.feedChunk c) s = applyFeedChunk c s := rfl
  simp only [hexec, applyFeedChunk, h]

/-- A chunk that returns no frame writes `S` and the returned value alone. -/
theorem exec_feedChunk_no_frame {s : State} (h : feedChunk s.par.bufCap s.asm c = some (S', [])) :
    exec (.feedChunk c) s = .next { s with asm := S', ret := .frames [] } := by
  simp [exec_feedChunk h]

/-- FEED_CHUNK from a known assembler: the `S` it leaves and the frames it returns. -/
theorem exists_exec_feedChunk {s : State} (hcap : s.par.bufCap = cap) (hS : s.asm = S)
    (h : feedChunk cap S c = some (S', fs)) :
    ∃ t, exec (.feedChunk c) s = .next t ∧ t.asm = S' ∧ t.ret = .frames fs := by
  subst hcap hS
  exact ⟨_, exec_feedChunk h, rfl, rfl⟩

end Chunk

/-- Settles O12: FEED_CHUNK recurses on the chunk through FEED, and completes where each byte has room. -/
theorem feedChunkIsFeedOfEachByteInOrder : Obligations.FeedChunkIsFeedOfEachByteInOrder := by
  unfold Obligations.FeedChunkIsFeedOfEachByteInOrder
  refine ⟨fun s => exec_feedChunk_no_frame rfl, ?cons, ?room⟩
  case cons =>
    intro s t u b c f fs hb hf hc hfs
    obtain ⟨S1, f', hfeed, rfl⟩ := applyFeed_next hb
    obtain ⟨S2, fs', hchunk, rfl⟩ := applyFeedChunk_next hc
    cases hf
    cases hfs
    rw [exec_feedChunk (feedChunk_cons hfeed hchunk)]
    simp
  case room =>
    intro s c hroom
    obtain ⟨S', fs, h⟩ := feedChunk_of_room (S := s.asm) hroom
    exact ⟨_, fs, exec_feedChunk h, rfl, feedChunk_length_le h, rfl⟩

/-! ### Chunk boundaries -/

/-- `o` is how the machine answers from `s` when its bytes do `r` to the assembler: the new `S`, the frames and one
result for each, or the overflow. -/
inductive Fed (s : State) : Option (Assembler × List Frame) → Host.Outcome State Fault Refusal → Prop
  | overflow : Fed s none (.fault .rxOverflow)
  | next {t : State} {S : Assembler} {fs : List Frame} (hasm : t.asm = S)
      (hframes : framesOf t.trace = framesOf s.trace ++ fs)
      (hresults : resultsOf t.trace = resultsOf s.trace ++ fs.map decodeFrame) : Fed s (some (S, fs)) (.next t)

/-- What was delivered on the way from `s` to `t` comes before what the rest delivers. -/
theorem Fed.after {s t : State} {fs : List Frame} {r : Option (Assembler × List Frame)}
    {o : Host.Outcome State Fault Refusal} (hframes : framesOf t.trace = framesOf s.trace ++ fs)
    (hresults : resultsOf t.trace = resultsOf s.trace ++ fs.map decodeFrame) (h : Fed t r o) :
    Fed s (r.map fun y => (y.1, fs ++ y.2)) o := by
  cases h with
  | overflow => exact .overflow
  | next hasm hframes' hresults' => exact .next hasm (by simp [hframes', hframes]) (by simp [hresults', hresults])

/-- One step on a chunk: the operation puts the frames out, and `deliver` their results. -/
theorem step_feedChunk_fed {s : State} {c : List Byte} {rest : List Input} (hin : s.inputs = .feedChunk c :: rest) :
    Fed s (feedChunk s.par.bufCap s.asm c) (step s) := by
  cases h : feedChunk s.par.bufCap s.asm c with
  | none =>
    rw [step_of_exec_fault hin rfl (exec_feedChunk_overflow (s := s.setInputs rest) h)]
    exact .overflow
  | some x =>
    rw [step_of_exec_next hin rfl (exec_feedChunk (s := s.setInputs rest) h)]
    exact .next rfl (by simp [deliver]) (by simp [deliver])

theorem run_of_fault {k : Nat} {s : State} {r : Fault} (h : step s = .fault r) : core.run (k + 1) s = .fault r := by
  have hcore : core.step s = .fault r := h
  simp only [Host.Core.run, hcore]

/-- 43_stream_assembler.md R169: a run over the chunks does to the assembler and the ports what their concatenation
does. -/
theorem run_feedChunks_fed {s : State} {cs : List (List Byte)} (hin : s.inputs = cs.map .feedChunk) :
    Fed s (feedChunk s.par.bufCap s.asm cs.flatten) (core.run cs.length s) := by
  induction cs generalizing s with
  | nil => exact .next rfl (by simp) (by simp)
  | cons c cs ih =>
    have hfirst := step_feedChunk_fed hin
    rw [List.flatten_cons, List.length_cons, feedChunk_append]
    generalize feedChunk s.par.bufCap s.asm c = r, hstep : step s = o at hfirst ⊢
    cases hfirst with
    | overflow => rw [run_of_fault hstep]; exact .overflow
    | @next t S fs hasm hframes hresults =>
      obtain ⟨hinputs, hpar, -⟩ := everyStepConsumesOneEventAndOnlyAddsOutputs s t hstep
      subst hasm
      rw [run_succ hstep, ← hpar]
      exact (ih (by simp [hinputs, hin])).after hframes hresults

/-- Settles O13: both runs do what the concatenation does, and `Fed` fixes what that is. -/
theorem chunkBoundariesCarryNoInformation : Obligations.ChunkBoundariesCarryNoInformation := by
  unfold Obligations.ChunkBoundariesCarryNoInformation
  intro s cs
  have hchunks := run_feedChunks_fed (s := s.setInputs (cs.map .feedChunk)) rfl
  have hwhole := step_feedChunk_fed (s := s.setInputs [.feedChunk cs.flatten]) rfl
  simp only [State.setInputs_par, State.setInputs_asm] at hchunks hwhole
  generalize core.run cs.length (s.setInputs (cs.map .feedChunk)) = o at hchunks ⊢
  generalize step (s.setInputs [.feedChunk cs.flatten]) = o' at hwhole ⊢
  generalize feedChunk s.par.bufCap s.asm cs.flatten = r at hchunks hwhole
  cases hchunks with
  | overflow => cases hwhole; rfl
  | next hasm hframes hresults =>
    cases hwhole with
    | next hasm' hframes' hresults' =>
      exact ⟨hasm.trans hasm'.symm, hframes.trans hframes'.symm, hresults.trans hresults'.symm⟩

/-! ### The assembler against the frame codec -/

/-- 43_stream_assembler.md R173 for one byte: its escape appends it. -/
theorem feedChunk_esc (u : List Byte) (b : Byte) :
    feedChunk none { buf := u, escaping := false } (esc b) = some ({ buf := u ++ [b], escaping := false }, []) := by
  obtain ⟨x, -, hesc, rfl⟩ | ⟨hesc, hend, hescape⟩ := esc_cases b
  · rw [hesc]
    exact feedChunk_cons (feed_escape rfl) (feedChunk_cons (feed_escaped rfl rfl x) rfl)
  · rw [hesc]
    exact feedChunk_cons (feed_data rfl hescape hend rfl) rfl

theorem feedChunk_flatMap_esc (u p : List Byte) :
    feedChunk none { buf := u, escaping := false } (p.flatMap esc) = some ({ buf := u ++ p, escaping := false }, []) := by
  induction p generalizing u with
  | nil => simp
  | cons b p ih => simpa using feedChunk_append_some (feedChunk_esc u b) (ih (u ++ [b]))

/-- In NORMAL the chunk of one terminator delivers what is buffered. -/
theorem feedChunk_frameEnd (cap : Option Nat) {S : Assembler} (hesc : S.escaping = false) :
    feedChunk cap S [frameEnd] = some ({ buf := [], escaping := false }, if S.buf = [] then [] else [S.buf]) := by
  rw [feedChunk_cons (feed_frameEnd hesc) (feedChunk_nil cap _)]
  split_ifs <;> rfl

/-- 43_stream_assembler.md R173. -/
theorem feedChunk_frameEncode (u p : List Byte) :
    feedChunk none { buf := u, escaping := false } (frameEncode p) =
      some ({ buf := [], escaping := false }, if u ++ p = [] then [] else [u ++ p]) :=
  feedChunk_append_some (feedChunk_flatMap_esc u p) (feedChunk_frameEnd none rfl)

theorem feedChunk_frameEncode_of_ne_nil {p : List Byte} (hp : p ≠ []) :
    feedChunk none { buf := [], escaping := false } (frameEncode p) = some ({ buf := [], escaping := false }, [p]) := by
  simpa [hp] using feedChunk_frameEncode [] p

/-- 43_stream_assembler.md R173, the sequence form. -/
theorem feedChunk_flatMap_frameEncode {ps : List (List Byte)} (hps : ∀ p ∈ ps, p ≠ []) :
    feedChunk none { buf := [], escaping := false } (ps.flatMap frameEncode) =
      some ({ buf := [], escaping := false }, ps) := by
  induction ps with
  | nil => rfl
  | cons p ps ih =>
    obtain ⟨hp, hrest⟩ := List.forall_mem_cons.mp hps
    exact feedChunk_append_some (feedChunk_frameEncode_of_ne_nil hp) (ih hrest)

/-- Settles O14: escapes append, the terminator delivers, and the next payload starts from the reset value. -/
theorem assemblerInvertsTheFrameCodec : Obligations.AssemblerInvertsTheFrameCodec := by
  unfold Obligations.AssemblerInvertsTheFrameCodec
  exact ⟨fun s u p hcap hS => exists_exec_feedChunk hcap hS (feedChunk_frameEncode u p),
    fun s ps hcap hS hps => exists_exec_feedChunk hcap hS (feedChunk_flatMap_frameEncode hps)⟩

/-- 43_stream_assembler.md R174: terminators with nothing buffered do nothing. -/
theorem feedChunk_replicate_frameEnd (cap : Option Nat) (k : Nat) :
    feedChunk cap { buf := [], escaping := false } (List.replicate k frameEnd) =
      some ({ buf := [], escaping := false }, []) := by
  induction k with
  | zero => rfl
  | succ k ih => exact feedChunk_cons (feed_frameEnd rfl) ih

/-- Settles O15: the terminators around the wire form do nothing, since nothing is buffered there. -/
theorem extraTerminatorsAreAbsorbed : Obligations.ExtraTerminatorsAreAbsorbed := by
  unfold Obligations.ExtraTerminatorsAreAbsorbed
  intro s k j p hcap hS
  have habsorb := feedChunk_replicate_frameEnd none
  refine ⟨?_, fun hp => ?_⟩
  · have hk : feedChunk s.par.bufCap s.asm (List.replicate k frameEnd) = some (s.asm, []) := by
      rw [hcap, hS]; exact habsorb k
    exact exec_feedChunk_no_frame hk
  · exact exists_exec_feedChunk hcap hS
      (feedChunk_append_some (feedChunk_append_some (habsorb k) (feedChunk_frameEncode_of_ne_nil hp)) (habsorb j))

/-- 43_stream_assembler.md R175: an escaped terminator is the data byte 0xC0. -/
theorem feedChunk_escape_frameEnd (u : List Byte) :
    feedChunk none { buf := u, escaping := false } [escape, frameEnd] =
      some ({ buf := u ++ [frameEnd], escaping := false }, []) :=
  feedChunk_cons (feed_escape rfl) (feedChunk_cons (feed_escaped rfl rfl frameEnd) rfl)

/-- Settles O16: the damaged frame stays buffered, and the next terminator delivers it with the next payload. -/
theorem truncatedEscapeMergesTwoFrames : Obligations.TruncatedEscapeMergesTwoFrames := by
  unfold Obligations.TruncatedEscapeMergesTwoFrames
  intro s u p hcap hS
  have hmerged : feedChunk none { buf := u, escaping := false } ([escape, frameEnd] ++ frameEncode p) =
      some ({ buf := [], escaping := false }, [u ++ [frameEnd] ++ p]) := by
    simpa using feedChunk_append_some (feedChunk_escape_frameEnd u) (feedChunk_frameEncode (u ++ [frameEnd]) p)
  exact ⟨exists_exec_feedChunk hcap hS (feedChunk_escape_frameEnd u), exists_exec_feedChunk hcap hS hmerged⟩

/-- 43_stream_assembler.md R171: of two terminators at most the first is data. -/
theorem feedChunk_two_frameEnd {cap : Option Nat} {S : Assembler} (hroom : hasRoom cap S.buf = true) :
    ∃ fs, feedChunk cap S [frameEnd, frameEnd] = some (Assembler.reset, fs) := by
  cases hesc : S.escaping with
  | true => exact ⟨_, feedChunk_cons (feed_escaped hesc hroom frameEnd) (feedChunk_frameEnd cap rfl)⟩
  | false => exact ⟨_, feedChunk_cons (feed_frameEnd hesc) (feedChunk_frameEnd cap rfl)⟩

/-- Settles O17: the last terminator meets NORMAL. -/
theorem twoTerminatorsRestoreTheResetState : Obligations.TwoTerminatorsRestoreTheResetState := by
  unfold Obligations.TwoTerminatorsRestoreTheResetState
  intro s hroom
  obtain ⟨fs, htwo⟩ := feedChunk_two_frameEnd (hasRoom_of_roomFor hroom)
  exact ⟨fun hesc => ⟨_, exec_feedChunk (feedChunk_frameEnd s.par.bufCap hesc), rfl⟩, _, exec_feedChunk htwo, rfl⟩

end Sys2Proof.Machine
end

section
/-! The inbound pipeline: chunks and polls, that every frame has its result, and the loopback of what was transmitted
(44_pipeline_host.md R180 to R185). -/

namespace Sys2Proof.Machine

/-! ### Every step keeps the results following the frames -/

section ResultsFollowFrames

variable {s t : State} {i : Instr} {c : List Byte}

/-- The part of `State.pipelineInv` about outputs: every frame has its result, in order, and nothing else has one. -/
def State.ResultsFollowFrames (s : State) : Prop := resultsOf s.trace = (framesOf s.trace).map decodeFrame

/-- New frames with one result each, in whatever order the ports interleave (20_memory.md R44). -/
theorem State.ResultsFollowFrames.of_frames {fs : List Frame} (hs : s.ResultsFollowFrames)
    (hframes : framesOf t.trace = framesOf s.trace ++ fs)
    (hresults : resultsOf t.trace = resultsOf s.trace ++ fs.map decodeFrame) : t.ResultsFollowFrames := by
  rw [State.ResultsFollowFrames, hframes, hresults, hs, List.map_append]

theorem State.ResultsFollowFrames.of_neither (hs : s.ResultsFollowFrames)
    (hframes : framesOf t.trace = framesOf s.trace) (hresults : resultsOf t.trace = resultsOf s.trace) :
    t.ResultsFollowFrames :=
  hs.of_frames (fs := []) (by simpa using hframes) (by simpa using hresults)

theorem takeTransportError_resultsFollowFrames (hs : s.ResultsFollowFrames) :
    (deliver (takeTransportError s)).ResultsFollowFrames :=
  hs.of_neither (by simp [takeTransportError_eq, deliver]) (by simp [takeTransportError_eq, deliver])

theorem transmitPacket_resultsFollowFrames (p : Packet) (hs : s.ResultsFollowFrames) :
    (deliver (transmitPacket p s)).ResultsFollowFrames := by
  obtain ⟨-, heq⟩ | ⟨ws, -, heq⟩ := transmitPacket_cases p s <;> rw [heq]
  · exact hs.of_neither (by simp [deliver]) (by simp [deliver])
  · exact takeTransportError_resultsFollowFrames hs

theorem processChunk_resultsFollowFrames (hs : s.ResultsFollowFrames) (h : processChunk c s = .next t) :
    (deliver t).ResultsFollowFrames := by
  obtain ⟨S, fs, -, rfl⟩ := processChunk_next h
  exact hs.of_frames (fs := fs) (by simp [deliver, processOutputs_ports]) (by simp [deliver, processOutputs_ports])

theorem pollOnce_resultsFollowFrames (hs : s.ResultsFollowFrames) (h : pollOnce s = .next t) :
    (deliver t).ResultsFollowFrames := by
  obtain ⟨c, rest, -, hproc⟩ | ⟨rest, -, rfl⟩ := pollOnce_next h
  · exact processChunk_resultsFollowFrames (s := s.setReads rest) hs hproc
  · exact takeTransportError_resultsFollowFrames (s := s.setReads rest) hs

/-- 44_pipeline_host.md R180: an operation that does not itself answer a frame from outside leaves, once its frames are
delivered, every frame with its result. -/
theorem exec_deliver_resultsFollowFrames (hi : ¬((tableRow i).format = .tag ∨ ∃ F, i = .decode F))
    (hs : s.ResultsFollowFrames) (h : exec i s = .next t) : (deliver t).ResultsFollowFrames := by
  cases meaning i with
  | feeds A _ _ hexec =>
    obtain ⟨S, f, -, rfl⟩ := applyFeed_next (hexec s ▸ h)
    cases f with
    | none => exact hs.of_neither (by simp [deliver]) (by simp [deliver])
    | some f => exact hs.of_frames (fs := [f]) (by simp [deliver]) (by simp [deliver])
  | feedsChunk c who =>
    subst who
    obtain ⟨S, fs, -, rfl⟩ := applyFeedChunk_next h
    exact hs.of_frames (fs := fs) (by simp [deliver]) (by simp [deliver])
  | processesChunk c who => subst who; exact processChunk_resultsFollowFrames hs h
  | polls who => subst who; exact pollOnce_resultsFollowFrames hs h
  | transmits p _ hexec => cases (hexec s).symm.trans h; exact transmitPacket_resultsFollowFrames p hs
  | emitsTx bs _ hexec =>
    cases (hexec s).symm.trans h
    exact hs.of_neither (by simp [emitTx_eq, deliver]) (by simp [emitTx_eq, deliver])
  | emitsResult r who => exact absurd who hi
  | returnsBytes bs hexec => cases (hexec s).symm.trans h; exact hs
  | discards hexec => cases (hexec s).symm.trans h; exact hs
  | takesTransportError who => subst who; cases h; exact takeTransportError_resultsFollowFrames hs

/-- 44_pipeline_host.md R184: the operations that answer a frame from outside are presented by bypassing events. -/
theorem encodeInput_bypassesAssembler (h : (tableRow i).format = .tag ∨ ∃ F, i = .decode F) :
    (encodeInput i).bypassesAssembler = true := by
  obtain htag | ⟨F, rfl⟩ := h
  · cases i with
    | decQuat | decAcc | decGyro | decMag | decTemperature | decGpio | decColor | decBlink | decIr | decStream
    | decVersion | decId | decCal | decGpioDdr | decGpioPort | decPower | decUnknown | decEmpty => rfl
    | _ => cases htag
  · rfl

end ResultsFollowFrames

/-- Settles O53: the event selects an operation that answers no frame from outside, and the events left are among those
that waited. -/
theorem everyStepKeepsResultsFollowingFramesOneForOne :
    Obligations.EveryStepKeepsResultsFollowingFramesOneForOne := by
  unfold Obligations.EveryStepKeepsResultsFollowingFramesOneForOne
  rintro s t ⟨hwaiting, hresults⟩ h
  obtain ⟨hinputs, -, -⟩ := everyStepConsumesOneEventAndOnlyAddsOutputs s t h
  refine ⟨fun e he => hwaiting e (List.mem_of_mem_tail (hinputs ▸ he)), ?_⟩
  obtain ⟨-, rfl⟩ | ⟨e, rest, i, u, hin, hdec, hexec, rfl⟩ := step_next h
  · exact hresults
  · obtain ⟨-, -, rfl⟩ := decodedOperationsAreWellFormedAndEncodeBack _ _ _ hdec
    have hno : (encodeInput i).bypassesAssembler = false := hwaiting _ (by simp [hin])
    refine exec_deliver_resultsFollowFrames (s := s.setInputs rest) (fun hi => ?_) hresults hexec
    simp [encodeInput_bypassesAssembler hi] at hno

/-! ### PROCESS_CHUNK -/

section ProcessChunk

variable {s : State} {S : Assembler} {c : List Byte} {fs : List Frame}

/-- The operation PROCESS_CHUNK from what the chunk does to the assembler. -/
theorem exec_processChunk (h : feedChunk s.par.bufCap s.asm c = some (S, fs)) :
    exec (.processChunk c) s =
      .next { s with asm := S,
                     trace := s.trace ++ fs.flatMap fun f => [.frameOut f, .resultOut (decodeFrame f)],
                     ret := .results (fs.map decodeFrame) } := by
  have hexec : exec (.processChunk c) s = processChunk c s := rfl
  simp only [hexec, processChunk, h]
  rfl

theorem exec_processChunk_nil (s : State) : exec (.processChunk []) s = .next { s with ret := .results [] } := by
  simp [exec_processChunk (feedChunk_nil _ s.asm)]

theorem exec_processChunk_of_room (hroom : s.roomFor c.length) : ∃ t, exec (.processChunk c) s = .next t := by
  obtain ⟨S, fs, h⟩ := feedChunk_of_room (S := s.asm) hroom
  exact ⟨_, exec_processChunk h⟩

end ProcessChunk

/-- Settles O45: both operations do the same to the assembler, and `processOutputs_ports` reads off the outputs. -/
theorem processChunkDecodesEveryFrameInOrder : Obligations.ProcessChunkDecodesEveryFrameInOrder := by
  unfold Obligations.ProcessChunkDecodesEveryFrameInOrder
  refine fun s c => ⟨fun u fs hexec hret => ?_, exec_processChunk_of_room⟩
  obtain ⟨S, fs', hfeed, rfl⟩ := applyFeedChunk_next hexec
  obtain rfl : fs' = fs := Ret.frames.inj hret
  obtain ⟨hframes, hresults, htx, herr⟩ := processOutputs_ports fs'
  exact ⟨_, exec_processChunk hfeed, rfl, rfl, by simp [hframes], by simp [hresults], rfl, by simp [htx],
    by simp [herr]⟩

/-! ### POLL -/

section Poll

variable {s : State} {c : List Byte} {rest : List ReadReply}

theorem readOnce_of_le {readMax : Option Nat} (h : ∀ n, readMax = some n → c.length ≤ n) :
    readOnce readMax (.bytes c :: rest) = (.bytes c, rest) := by
  cases readMax with
  | none => rfl
  | some n => simp [readOnce, h n rfl]

theorem readOnce_of_lt {n : Nat} (h : n < c.length) :
    readOnce (some n) (.bytes c :: rest) = (.bytes (c.take n), .bytes (c.drop n) :: rest) := by
  simp [readOnce, Nat.not_le.mpr h]

/-- 44_pipeline_host.md R181: POLL is PROCESS_CHUNK of the bytes its read returned. -/
theorem exec_poll (h : readOnce s.par.readMax s.reads = (.bytes c, rest)) :
    exec .poll s = exec (.processChunk c) (s.setReads rest) := by
  have hexec : exec .poll s = pollOnce s := rfl
  simp only [hexec, pollOnce, h]
  rfl

end Poll

/-- Settles O46: the read's three cases, and an empty chunk for the empty read. -/
theorem pollProcessesOneBoundedRead : Obligations.PollProcessesOneBoundedRead := by
  unfold Obligations.PollProcessesOneBoundedRead
  refine fun s => ⟨fun hnone => ?_, fun c rest hreads => ⟨fun hle => ?_, fun n hmax hlt => ?_⟩⟩
  · have hread : readOnce s.par.readMax s.reads = (.bytes [], s.reads) := by rw [hnone]; rfl
    exact (exec_poll hread).trans (exec_processChunk_nil s)
  · have hpoll : exec .poll s = exec (.processChunk c) (s.setReads rest) :=
      exec_poll (by rw [hreads, readOnce_of_le hle])
    refine ⟨hpoll, fun hroom => ?_⟩
    rw [hpoll]
    exact exec_processChunk_of_room (s := s.setReads rest) hroom
  · exact exec_poll (by rw [hreads, hmax, readOnce_of_lt hlt])

/-! ### The loopback -/

/-- What `TX_BYTE` carries for a sequence of packets (42_packet_encode_commands.md R140). -/
def wireOf (ps : List Packet) : List Byte := (ps.map encodePacket).flatMap frameEncode

theorem step_of_transmit {s : State} {p : Packet} {rest : List Input} (hin : s.inputs = .transmit p :: rest)
    (hwrites : s.writes = []) : step s = .next (emitTx (frameEncode (encodePacket p)) (s.setInputs rest)) := by
  rw [step_of_exec_next hin rfl (exec_transmit_of_accepted (s := s.setInputs rest) (by simp [hwrites]) p)]
  simp [deliver, emitTx_eq, hwrites]

/-- With no write that fails, transmitting packets emits their wire forms and leaves `S` and the parameters alone. -/
theorem run_transmits {s : State} {ps : List Packet} (hin : s.inputs = ps.map .transmit) (hwrites : s.writes = []) :
    ∃ t, core.run ps.length s = .next t ∧ t.asm = s.asm ∧ t.par = s.par ∧
      txBytesOf t.trace = txBytesOf s.trace ++ wireOf ps := by
  induction ps generalizing s with
  | nil => exact ⟨s, rfl, rfl, rfl, by simp [wireOf]⟩
  | cons p ps ih =>
    obtain ⟨t, hrun, hasm, hpar, htx⟩ :=
      ih (s := emitTx (frameEncode (encodePacket p)) (s.setInputs (ps.map .transmit))) rfl hwrites
    exact ⟨t, (run_succ (step_of_transmit hin hwrites)).trans hrun, hasm, hpar, by simp [htx, emitTx_eq, wireOf]⟩

/-- PROCESS_CHUNK as a step: its results are already out, and `deliver` adds nothing. -/
theorem step_of_processChunk {s : State} {S : Assembler} {c : List Byte} {fs : List Frame} {rest : List Input}
    (hin : s.inputs = .processChunk c :: rest) (h : feedChunk s.par.bufCap s.asm c = some (S, fs)) :
    ∃ t, step s = .next t ∧ t.asm = S ∧ t.inputs = rest ∧ t.par = s.par ∧
      resultsOf t.trace = resultsOf s.trace ++ fs.map decodeFrame :=
  ⟨_, step_of_exec_next hin rfl (exec_processChunk (s := s.setInputs rest) h), rfl, rfl, rfl,
    by simp [deliver, processOutputs_ports]⟩

/-- A chunk of two parts that completes, its parts: the converse of `feedChunk_append_some`. -/
theorem feedChunk_of_append_some {cap : Option Nat} {S S2 : Assembler} {c d : List Byte} {out : List Frame}
    (h : feedChunk cap S (c ++ d) = some (S2, out)) :
    ∃ S1 fs gs, feedChunk cap S c = some (S1, fs) ∧ feedChunk cap S1 d = some (S2, gs) ∧ out = fs ++ gs := by
  rw [feedChunk_append, Option.bind_eq_some_iff] at h
  obtain ⟨⟨S1, fs⟩, hc, h⟩ := h
  obtain ⟨⟨S2', gs⟩, hd, heq⟩ := Option.map_eq_some_iff.mp h
  cases heq
  exact ⟨S1, fs, gs, hc, hd, rfl⟩

/-- 44_pipeline_host.md R180 over a run: PROCESS_CHUNK of the chunks in turn adds the results of their concatenation. -/
theorem run_processChunks {s : State} {S : Assembler} {cs : List (List Byte)} {fs : List Frame}
    (hin : s.inputs = cs.map .processChunk) (h : feedChunk s.par.bufCap s.asm cs.flatten = some (S, fs)) :
    ∃ u, core.run cs.length s = .next u ∧ u.asm = S ∧
      resultsOf u.trace = resultsOf s.trace ++ fs.map decodeFrame := by
  induction cs generalizing s fs with
  | nil => cases h; exact ⟨s, rfl, rfl, by simp⟩
  | cons c cs ih =>
    obtain ⟨S1, fs1, fs2, hc, hcs, rfl⟩ := feedChunk_of_append_some (List.flatten_cons ▸ h)
    obtain ⟨t, hstep, hasm, hinputs, hpar, hresults⟩ := step_of_processChunk hin hc
    subst hasm
    obtain ⟨u, hrun, hasm, hresults'⟩ := ih hinputs (hpar ▸ hcs)
    exact ⟨u, (run_succ hstep).trans hrun, hasm, by simp [hresults', hresults]⟩

/-- 43_stream_assembler.md R173 on packets: the assembler gets back their frames. -/
theorem feedChunk_wireOf (ps : List Packet) :
    feedChunk none Assembler.reset (wireOf ps) = some (Assembler.reset, ps.map encodePacket) :=
  feedChunk_flatMap_frameEncode (List.forall_mem_map.mpr fun p _ => encodePacket_ne_nil p)

/-- 42_packet_encode_commands.md R137 on sequences. -/
theorem decodeFrames_encodePackets (ps : List Packet) : (ps.map encodePacket).map decodeFrame = ps.map .ok := by
  rw [List.map_map]
  exact List.map_congr_left fun p _ => decodeFrame_encodePacket p

theorem extractFrame_frameEncode_encodePacket (p : Packet) :
    extractFrame none (frameEncode (encodePacket p)) = some (encodePacket p) := by
  have hfeed : feedChunk none Assembler.reset (frameEncode (encodePacket p)) =
      some (Assembler.reset, [encodePacket p]) := feedChunk_frameEncode_of_ne_nil (encodePacket_ne_nil p)
  simp [extractFrame, hfeed]

/-- Settles O47: the bytes sent are the wire forms, of which the assembler makes the frames of the packets again, and
`decode` the packets. -/
theorem loopbackReturnsThePacketsSent : Obligations.LoopbackReturnsThePacketsSent := by
  unfold Obligations.LoopbackReturnsThePacketsSent
  intro s ps hcap hS hwrites
  obtain ⟨t, hrun, hasm, hpar, htx⟩ := run_transmits (s := s.setInputs (ps.map .transmit)) rfl hwrites
  have hreset : t.asm = Assembler.reset := hasm.trans hS
  have hunbounded : t.par.bufCap = none := (congrArg Params.bufCap hpar).trans hcap
  refine ⟨t, hrun, hreset, wireOf ps, htx, fun cs hcs => ?_, fun p _ =>
    ⟨extractFrame_frameEncode_encodePacket p, decodeFrame_encodePacket p⟩⟩
  have hfeed : feedChunk t.par.bufCap t.asm cs.flatten = some (Assembler.reset, ps.map encodePacket) := by
    rw [hunbounded, hreset, hcs, feedChunk_wireOf]
  obtain ⟨u, hrun', hasm', hresults⟩ := run_processChunks (s := t.setInputs (cs.map .processChunk)) rfl hfeed
  rw [decodeFrames_encodePackets] at hresults
  exact ⟨u, hrun', hasm', hresults⟩

end Sys2Proof.Machine
end

section
/-! Taking a TransportError: what a failed read and a failed write leave (60_exceptions.md R198). -/

namespace Sys2Proof.Machine

section TransportError

variable {s : State}

/-- 44_pipeline_host.md R181 where the read fails. -/
theorem exec_poll_of_failed {rest : List ReadReply} (h : s.reads = .failed :: rest) :
    exec .poll s = .next (takeTransportError (s.setReads rest)) := by
  have hread : readOnce s.par.readMax s.reads = (.failed, rest) := by rw [h]; rfl
  have hexec : exec .poll s = pollOnce s := rfl
  simp only [hexec, pollOnce, hread]

/-- 42_packet_encode_commands.md R140 where the write fails. -/
theorem transmitPacket_of_failed {ws : List WriteReply} (h : s.writes = .failed :: ws) (p : Packet) :
    transmitPacket p s = takeTransportError (s.setWrites ws) := by
  simp only [transmitPacket, h, writeOnce]

/-- 42_packet_encode_commands.md R140 to R147: TRANSMIT and each command transmit one packet. -/
theorem exec_of_transmit_or_format_cmd {p : Packet} {i : Instr}
    (h : i = .transmit p ∨ (tableRow i).format = .cmd) : ∃ q, ∀ s, exec i s = .next (transmitPacket q s) := by
  obtain rfl | hcmd := h
  · exact ⟨p, fun _ => rfl⟩
  · exact exec_of_format_cmd hcmd

end TransportError

/-- Settles O43: all three take the same TransportError, the last two with the transport's reply consumed. -/
theorem transportErrorsDiscardAndReport : Obligations.TransportErrorsDiscardAndReport := by
  unfold Obligations.TransportErrorsDiscardAndReport
  refine fun s rest ws p => ⟨congrArg Host.Outcome.next (takeTransportError_eq s), fun hreads => ?_,
    fun hwrites i hi => ?_⟩
  · rw [exec_poll_of_failed hreads, takeTransportError_eq]
    rfl
  · obtain ⟨q, hexec⟩ := exec_of_transmit_or_format_cmd hi
    rw [hexec, transmitPacket_of_failed hwrites, takeTransportError_eq]
    rfl

end Sys2Proof.Machine
end

section
/-! The capacity of the buffer: a full one faults every append, and with no bound every operation completes
(70_reset_and_hazards.md R233, R241). -/

namespace Sys2Proof.Machine

variable {s : State}

/-! ### The rows that append nothing -/

theorem exec_rxEsc_completes (s : State) : ∃ t, exec .rxEsc s = .next t := ⟨_, rfl⟩

theorem exec_rxEnd_completes (s : State) : ∃ t, exec .rxEnd s = .next t := by
  have hexec : exec .rxEnd s = applyFeed (asmEnd s.asm) s := rfl
  rw [hexec, asmEnd]
  split
  · exact ⟨_, rfl⟩
  · exact ⟨_, rfl⟩

theorem ne_fault_of_completes {i : Instr} (h : ∃ t, exec i s = .next t) (r : Fault) : exec i s ≠ .fault r := by
  obtain ⟨t, ht⟩ := h
  simp [ht]

/-! ### A full buffer -/

section Full

variable {cap : Option Nat} {S : Assembler}

theorem hasRoom_of_full {buf : Frame} {n : Nat} (hcap : cap = some n) (hlen : buf.length = n) :
    hasRoom cap buf = false := by
  simp [hcap, hlen]

theorem asmAppend_of_full (hfull : hasRoom cap S.buf = false) (v : Byte) : asmAppend cap S v = none := by
  simp [asmAppend, hfull]

theorem asmUnescape_of_full (hfull : hasRoom cap S.buf = false) (v : Byte) : asmUnescape cap S v = none := by
  simp [asmUnescape, asmAppend_of_full hfull]

theorem asmData_of_full (hfull : hasRoom cap S.buf = false) (b : Byte) : asmData cap S b = none := by
  simp [asmData, asmAppend_of_full hfull]

end Full

theorem applyFeed_asmUnescape_of_full (hfull : hasRoom s.par.bufCap s.asm.buf = false) (v : Byte) :
    applyFeed (asmUnescape s.par.bufCap s.asm v) s = .fault .rxOverflow := by
  rw [asmUnescape_of_full hfull, applyFeed]

theorem exec_rxData_of_full (hfull : hasRoom s.par.bufCap s.asm.buf = false) (b : Byte) :
    exec (.rxData b) s = .fault .rxOverflow := by
  have hexec : exec (.rxData b) s = applyFeed (asmData s.par.bufCap s.asm b) s := rfl
  rw [hexec, asmData_of_full hfull, applyFeed]

/-- FEED faults exactly where the row that O9 names appends. -/
theorem exec_feed_of_full (hfull : hasRoom s.par.bufCap s.asm.buf = false) (b : Byte) :
    exec (.feed b) s = .fault .rxOverflow ↔ s.asm.escaping = true ∨ (b ≠ escape ∧ b ≠ frameEnd) := by
  rw [exec_feed_eq_exec_decodeRx, decodeRx]
  split_ifs with hflag _ _ hescape hend
  · exact iff_of_true (applyFeed_asmUnescape_of_full hfull frameEnd) (.inl hflag)
  · exact iff_of_true (applyFeed_asmUnescape_of_full hfull escape) (.inl hflag)
  · exact iff_of_true (applyFeed_asmUnescape_of_full hfull b) (.inl hflag)
  · exact iff_of_false (ne_fault_of_completes (exec_rxEsc_completes s) _) (by simp [hflag, hescape])
  · exact iff_of_false (ne_fault_of_completes (exec_rxEnd_completes s) _) (by simp [hflag, hend])
  · exact iff_of_true (exec_rxData_of_full hfull b) (.inr ⟨hescape, hend⟩)

/-- Settles O10: each of the four rows is an append, the other two are not, and FEED runs one of the six. -/
theorem appendToAFullBufferFaults : Obligations.AppendToAFullBufferFaults := by
  unfold Obligations.AppendToAFullBufferFaults
  intro s n b hcap hlen
  have hfull : hasRoom s.par.bufCap s.asm.buf = false := hasRoom_of_full hcap hlen
  exact ⟨applyFeed_asmUnescape_of_full hfull frameEnd, applyFeed_asmUnescape_of_full hfull escape,
    applyFeed_asmUnescape_of_full hfull b, exec_rxData_of_full hfull b, exec_feed_of_full hfull b,
    exec_rxEsc_completes s, exec_rxEnd_completes s⟩

/-! ### Room enough -/

theorem State.roomFor_of_unbounded (hcap : s.par.bufCap = none) (k : Nat) : s.roomFor k :=
  fun n hn => by simp [hcap] at hn

/-- 43_stream_assembler.md R162 to R167: with room for one byte every row completes, in or out of its context. -/
theorem exec_rxRow_of_room {i : Instr} (hfmt : (tableRow i).format = .rxb) (hroom : s.roomFor 1) :
    ∃ t, exec i s = .next t := by
  cases i with
  | rxUnescEnd => exact ⟨_, applyFeed_asmUnescape hroom frameEnd⟩
  | rxUnescEsc => exact ⟨_, applyFeed_asmUnescape hroom escape⟩
  | rxUnescLit b => exact ⟨_, applyFeed_asmUnescape hroom b⟩
  | rxEsc => exact exec_rxEsc_completes s
  | rxEnd => exact exec_rxEnd_completes s
  | rxData b =>
    have hexec : exec (.rxData b) s = applyFeed (asmData s.par.bufCap s.asm b) s := rfl
    rw [hexec, asmData_of_room (hasRoom_of_roomFor hroom)]
    exact ⟨_, rfl⟩
  | _ => cases hfmt

theorem exec_feed_of_room (hroom : s.roomFor 1) (b : Byte) : ∃ t, exec (.feed b) s = .next t := by
  obtain ⟨S, f, hfeed⟩ := feed_of_room (hasRoom_of_roomFor hroom) b
  have hexec : exec (.feed b) s = applyFeed (feed s.par.bufCap s.asm b) s := rfl
  rw [hexec, hfeed]
  exact ⟨_, rfl⟩

theorem exec_feedChunk_of_room {c : List Byte} (hroom : s.roomFor c.length) :
    ∃ t, exec (.feedChunk c) s = .next t := by
  obtain ⟨S, fs, hfeed⟩ := feedChunk_of_room (S := s.asm) hroom
  exact ⟨_, exec_feedChunk hfeed⟩

/-- 44_pipeline_host.md R181: a POLL processes the chunk it read or takes the TransportError of its read. -/
theorem exec_poll_of_unbounded (hcap : s.par.bufCap = none) : ∃ t, exec .poll s = .next t := by
  match hread : readOnce s.par.readMax s.reads with
  | (.bytes c, rest) =>
    rw [exec_poll hread]
    exact exec_processChunk_of_room (State.roomFor_of_unbounded (s := s.setReads rest) hcap c.length)
  | (.failed, rest) =>
    have hexec : exec .poll s = pollOnce s := rfl
    simp only [hexec, pollOnce, hread]
    exact ⟨_, rfl⟩

/-- Settles O60: only the operations that append can fault, and those have room; every other meaning is total. -/
theorem everyOperationCompletesUnderTheDefaultCapacity :
    Obligations.EveryOperationCompletesUnderTheDefaultCapacity := by
  unfold Obligations.EveryOperationCompletesUnderTheDefaultCapacity
  intro i s hcap
  have hroom : ∀ k, s.roomFor k := State.roomFor_of_unbounded hcap
  cases meaning i with
  | feeds A who _ _ =>
    obtain hfmt | ⟨b, rfl⟩ := who
    · exact exec_rxRow_of_room hfmt (hroom 1)
    · exact exec_feed_of_room (hroom 1) b
  | feedsChunk c who => subst who; exact exec_feedChunk_of_room (hroom c.length)
  | processesChunk c who => subst who; exact exec_processChunk_of_room (hroom c.length)
  | polls who => subst who; exact exec_poll_of_unbounded hcap
  | transmits p _ hexec => exact ⟨_, hexec s⟩
  | emitsTx bs _ hexec => exact ⟨_, hexec s⟩
  | emitsResult r _ hexec => exact ⟨_, hexec s⟩
  | returnsBytes bs hexec => exact ⟨_, hexec s⟩
  | discards hexec => exact ⟨_, hexec s⟩
  | takesTransportError who => subst who; exact ⟨_, rfl⟩

end Sys2Proof.Machine
end
